-- ==== Sys2Proof/Word.lean ====
section
/-! DEFINITION. The words and the two-valued signals of the display-interface controller (DIC).

Widths: `spec/00_scope.md` R4, `spec/10_state.md` R10, R15, `spec/30_encoding.md` R53. -/
namespace Sys2Proof

/-- A wire byte, and the width of the operand ports `arg_a` and `arg_b` (R15, R37). -/
abbrev Byte := BitVec 8

/-- The width of the cursor register `POS`, 6 bits (R10). -/
abbrev Pos := BitVec 6

/-- The glyph bitmap, 35 cells; bit `5*(row-1)+(col-1)` is cell (col, row) (R130). -/
abbrev Glyph := BitVec 35

/-- The operation selector `op_sel`, 4 bits (R15, R51). -/
abbrev OpSel := BitVec 4

/-- The operand and selector lines of the host command port read as one number:
`op_sel` is bits 3..0, `arg_a` bits 11..4, `arg_b` bits 19..12, `arg_g` bits 54..20.
DESIGN CHOICE (log entry 1): the spec gives four separate ports (R15) and no order among them. -/
abbrev PortWord := BitVec 55

/-- The name of a line; no rule reads its value (R4, R17). -/
abbrev LineId := Nat

/-- The level of a line. `WR` is specified by level (R12). -/
inductive Level where
  | low
  | high
  deriving DecidableEq, Repr, Inhabited

/-- The logical state of `BUSY` or `SEL`, independent of the voltage level (glossary of `00_scope.md`). -/
inductive Logic where
  | asserted
  | deasserted
  deriving DecidableEq, Repr, Inhabited

/-- An output line or bundle of lines: undriven until `begin` configures its direction, then a latch that
keeps the last value written (R12, R20, U17; log entry 26). -/
inductive Drive (α : Type) where
  | undriven
  | drives (v : α)
  deriving DecidableEq, Repr

end Sys2Proof
end

