-- ==== Sys2Proof/Config.lean ====
section
/-! DEFINITION. What an instance is constructed with (`spec/00_scope.md` R4, `spec/10_state.md` R17) and the free
values: constants without a body, so that no proof can see what they are. -/
namespace Sys2Proof

/-- The encoder operations that own a settle delay `T_SETTLE[op]` (R4, R99). `setCursor` and `home` use
`setCursorPosition`'s (R119, R120). -/
inductive SettleOp where
  | clear
  | reset
  | setBrightness
  | setCursorMode
  | setCursorPosition
  | defineCustomChar
  | backspace
  | horizontalTab
  | allDisplayOn
  deriving DecidableEq, Repr

/-- The named durations of R4 and R171. A delay is an event that carries the name, never a number (R5). -/
inductive DelayName where
  /-- `T_POLL`, between two reads of one busy-wait. -/
  | poll
  /-- `T_WR_LOW`, after `WR` falls. -/
  | wrLow
  /-- `T_WR_HIGH`, after `WR` rises. -/
  | wrHigh
  /-- `T_GAP`, after each serial byte. -/
  | gap
  /-- `T_SETTLE[op]`, after the last byte of an encoder operation. -/
  | settle (op : SettleOp)
  deriving DecidableEq, Repr

/-- Which data bit of a frame is sent first (R35, R77). -/
inductive BitOrder where
  | lsbFirst
  | msbFirst
  deriving DecidableEq, Repr

/-- The parity bit of a frame: none, or after the data bits one that makes the number of ones among the two even or odd,
or one of a fixed level (R77: "whether the real module wants parity or another rate cannot be told from the source"). -/
inductive Parity where
  | none
  | even
  | odd
  | mark
  | space
  deriving DecidableEq, Repr

/-- `SERIAL_FRAME`, a frame format in the terms of R4 and R77: start bits (0), the data bits in an order, a parity bit
or none, stop bits (1). The data bits are eight, since every transfer moves exactly 8 bits (R37). That the parameter is
made of these four, in whole bits, is DEDUCED (log entry 8). -/
structure SerialFrame where
  startBits : Nat
  order     : BitOrder
  parity    : Parity
  stopBits  : Nat
  deriving DecidableEq, Repr

/-- The default: one start bit, eight data bits least significant first, no parity, one stop bit (R4, R77; general
knowledge by the spec's own mark, log entry 25). -/
def SerialFrame.standard : SerialFrame := { startBits := 1, order := .lsbFirst, parity := .none, stopBits := 1 }

/-- The Serial variant of `TransportConfig` (R17) with the parameters `F_REF` and `SERIAL_FRAME` of R4. -/
structure SerialConfig where
  /-- `rxPin`; never sampled (R79). -/
  rxPin : LineId
  txPin : LineId
  /-- `BAUD`, "positive integer, bits per second" (R4). -/
  baud  : ℕ+
  /-- `F_REF`, the frequency of the reference clock of the baud divider, in periods a second (R4, R78). The spec gives
  it no numeric type: that it is a rational number is a DESIGN CHOICE (log entry 27). -/
  fRef  : Rat
  frame : SerialFrame
  deriving DecidableEq, Repr

/-- The Parallel variant of `TransportConfig` (R17) with the polarities `BUSY_ACTIVE` and `SEL_ACTIVE` of R4. -/
structure ParallelConfig where
  /-- `PIN_D[0..7]`. -/
  pinD       : Vector LineId 8
  pinWr      : LineId
  pinSel     : LineId
  pinBusy    : LineId
  busyActive : Level
  selActive  : Level
  deriving DecidableEq, Repr

/-- `TransportMode` (R4). -/
inductive Mode where
  | serial
  | parallel
  deriving DecidableEq, Repr

/-- `TransportConfig`: a sum type, exactly one variant populated, matching `MODE` (R17). -/
inductive TransportConfig where
  | serial (c : SerialConfig)
  | parallel (c : ParallelConfig)
  deriving DecidableEq, Repr

namespace Config

/-- FREE VALUE (log entry 3): the level the module has on `BUSY` at sample number `n`, where the state's list of the
module's answers says nothing. R6: "its answer to each `BusyRead()` is a free draw that no rule constrains". -/
opaque busyLevel : Nat → Level

/-- FREE VALUE (log entry 9): which way `round(F_REF / BAUD)` of R78 goes exactly half way between two integers. -/
opaque roundTieUp : Bool

/-- FREE VALUE (log entry 20): the durations of R4; no rule depends on them and no source gives a number (R171). -/
opaque baseDuration : DelayName → Nat

/-- What `State.reset` is constructed with. DESIGN CHOICE (log entry 4): the spec leaves `MODE`, `TransportConfig`,
`F_REF` and `SERIAL_FRAME` to the construction; 9600 is the spec's own example of a rate. No statement rests on it. -/
def construction : TransportConfig :=
  .serial { rxPin := 0, txPin := 1, baud := 9600, fRef := 9600, frame := .standard }

end Config

end Sys2Proof
end

