-- ==== Sys2Proof/Syntax.lean ====
section
/-! DEFINITION. The instruction set: one constructor for each row of `spec/opcode_table.json`
(`spec/30_encoding.md` R50, R51, R58; the internal rows `spec/40_transport.md` R71, R72). -/
namespace Sys2Proof

/-- The host operations with the operands the command port carries, unchecked (R51 to R53), the two reserved
selectors, the pseudo-operation `print` and the two variants of the internal primitive `TxByte`. -/
inductive Instr where
  /-- `op_sel` 0x0 (R73). -/
  | begin
  /-- `op_sel` 0x1 (R75). -/
  | isBusy
  /-- `op_sel` 0x2, `arg_a` = `b` (R118). -/
  | write (b : Byte)
  /-- `op_sel` 0x3 (R90). -/
  | clear
  /-- `op_sel` 0x4 (R91). -/
  | reset
  /-- `op_sel` 0x5, `arg_a` = `level` (R92). -/
  | setBrightness (level : Byte)
  /-- `op_sel` 0x6, `arg_a` = mode selector: 0 off, 1 on, 2 blink; 3 to 255 reserved (R93, R58). -/
  | setCursorMode (sel : Byte)
  /-- `op_sel` 0x7, `arg_a` = `p` (R94). -/
  | setCursorPosition (p : Byte)
  /-- `op_sel` 0x8, `arg_a` = `row`, `arg_b` = `col` (R119). -/
  | setCursor (row col : Byte)
  /-- `op_sel` 0x9 (R120). -/
  | home
  /-- `op_sel` 0xA, `arg_a` = `slot`, `arg_g` = `g` (R95). -/
  | defineCustomChar (slot : Byte) (g : Glyph)
  /-- `op_sel` 0xB (R96). -/
  | backspace
  /-- `op_sel` 0xC (R97). -/
  | horizontalTab
  /-- `op_sel` 0xD (R98). -/
  | allDisplayOn
  /-- `op_sel` 0xE, reserved (R58 item 1). -/
  | reservedE
  /-- `op_sel` 0xF, reserved (R58 item 1). -/
  | reservedF
  /-- The pseudo-operation `print`: no selector of its own (R121). -/
  | print (bs : List Byte)
  /-- `TxByte(v)`, Serial variant: internal, not issuable by the host (R71). -/
  | txByteSerial (v : Byte)
  /-- `TxByte(v)`, Parallel variant: internal, not issuable by the host (R72). -/
  | txByteParallel (v : Byte)
  deriving DecidableEq, Repr

end Sys2Proof
end

