-- ==== Sys2Proof/WellFormed.lean ====
section
/-! DEFINITION. The admitted subset of the instruction set (`spec/00_scope.md` R5): the fourteen operations and
`print`, with the operand values `spec/30_encoding.md` R53 and R58 do not reserve; and the parameter checks of
`spec/00_scope.md` R4. -/
namespace Sys2Proof

/-- `i` is one of the fourteen operations or `print` and no operand of it is reserved: a mode selector above 2 is
reserved (R58 item 2), the selectors 0xE and 0xF are (R58 item 1), and `TxByte` is no operation of the host (R70).
Every value of every other operand is legal (R53, R58 items 3 to 6). -/
def Instr.wellFormed : Instr → Bool
  | .begin => true
  | .isBusy => true
  | .write _ => true
  | .clear => true
  | .reset => true
  | .setBrightness _ => true
  | .setCursorMode sel => decide (sel.toNat ≤ 2)
  | .setCursorPosition _ => true
  | .setCursor _ _ => true
  | .home => true
  | .defineCustomChar _ _ => true
  | .backspace => true
  | .horizontalTab => true
  | .allDisplayOn => true
  | .reservedE => false
  | .reservedF => false
  | .print _ => true
  | .txByteSerial _ => false
  | .txByteParallel _ => false

/-- R78: `DIV = round(F_REF / BAUD)` is at least 1, so `F_REF / BAUD` is above 1/2, or exactly 1/2 where that tie rounds up:
which way it goes the spec leaves open, and the check takes the free value `Config.roundTieUp` as `DIV` does (DESIGN CHOICE,
log entry 9). `BAUD` is positive by its type (R4). A Parallel configuration has no range to check. -/
def TransportConfig.wellFormed : TransportConfig → Bool
  | .serial c =>
    let n := 2 * c.fRef.num.toNat
    let d := c.fRef.den * c.baud
    decide (d < n) || (decide (d = n) && Config.roundTieUp)
  | .parallel _ => true

end Sys2Proof
end

