-- ==== Sys2Proof/Decode.lean ====
section
/-! DEFINITION. The host-side encoding (`spec/30_encoding.md` R51 to R53): the fields of the command port, the decoder
and the encoder. The decoder is total: each of the sixteen selectors has a constructor, the reserved two among them,
whose meanings refuse by name. -/
namespace Sys2Proof

/-- `op_sel[3:0]`. -/
def portOpSel (w : PortWord) : OpSel := w.extractLsb' 0 4

/-- `arg_a[7:0]`. -/
def portArgA (w : PortWord) : Byte := w.extractLsb' 4 8

/-- `arg_b[7:0]`. -/
def portArgB (w : PortWord) : Byte := w.extractLsb' 12 8

/-- `arg_g[34:0]`. -/
def portArgG (w : PortWord) : Glyph := w.extractLsb' 20 35

/-- The four port signals as one word (log entry 1). -/
def portWord (op : OpSel) (a b : Byte) (g : Glyph) : PortWord := g ++ b ++ a ++ op

/-- The operation the host selects with `op_sel`, with the operand ports its format latches (R51, R52); the ports a
format does not use are ignored. -/
def decode (w : PortWord) : Instr :=
  match (portOpSel w).toNat with
  | 0x0 => .begin
  | 0x1 => .isBusy
  | 0x2 => .write (portArgA w)
  | 0x3 => .clear
  | 0x4 => .reset
  | 0x5 => .setBrightness (portArgA w)
  | 0x6 => .setCursorMode (portArgA w)
  | 0x7 => .setCursorPosition (portArgA w)
  | 0x8 => .setCursor (portArgA w) (portArgB w)
  | 0x9 => .home
  | 0xA => .defineCustomChar (portArgA w) (portArgG w)
  | 0xB => .backspace
  | 0xC => .horizontalTab
  | 0xD => .allDisplayOn
  | 0xE => .reservedE
  | _ => .reservedF

/-- Host format H0: the selector alone (R52). -/
def encodeH0 (op : OpSel) : PortWord := portWord op 0 0 0

/-- Host format H1: the selector and `arg_a` (R52). -/
def encodeH1 (op : OpSel) (a : Byte) : PortWord := portWord op a 0 0

/-- Host format H2: the selector, `arg_a` and `arg_b` (R52). -/
def encodeH2 (op : OpSel) (a b : Byte) : PortWord := portWord op a b 0

/-- Host format HG: the selector, `arg_a` and `arg_g` (R52). -/
def encodeHG (op : OpSel) (a : Byte) (g : Glyph) : PortWord := portWord op a 0 g

/-- The words the host presents for an instruction, first word first. `print` has no selector of its own: it is one
`write` for each byte (R61, R121); `TxByte` is not issuable, so it has no word (R70). A port an instruction's format
ignores is encoded as 0. -/
def encode : Instr → List PortWord
  | .begin => [encodeH0 0x0]
  | .isBusy => [encodeH0 0x1]
  | .write b => [encodeH1 0x2 b]
  | .clear => [encodeH0 0x3]
  | .reset => [encodeH0 0x4]
  | .setBrightness level => [encodeH1 0x5 level]
  | .setCursorMode sel => [encodeH1 0x6 sel]
  | .setCursorPosition p => [encodeH1 0x7 p]
  | .setCursor row col => [encodeH2 0x8 row col]
  | .home => [encodeH0 0x9]
  | .defineCustomChar slot g => [encodeHG 0xA slot g]
  | .backspace => [encodeH0 0xB]
  | .horizontalTab => [encodeH0 0xC]
  | .allDisplayOn => [encodeH0 0xD]
  | .reservedE => [encodeH0 0xE]
  | .reservedF => [encodeH0 0xF]
  | .print bs => bs.map (encodeH1 0x2)
  | .txByteSerial _ => []
  | .txByteParallel _ => []

/-- The operations an instruction is issued as: itself for an instruction with a selector, one `write` for each byte
for `print`, none for the internal `TxByte` (R61, R70, R121). -/
def Instr.issuedAs : Instr → List Instr
  | .begin => [.begin]
  | .isBusy => [.isBusy]
  | .write b => [.write b]
  | .clear => [.clear]
  | .reset => [.reset]
  | .setBrightness level => [.setBrightness level]
  | .setCursorMode sel => [.setCursorMode sel]
  | .setCursorPosition p => [.setCursorPosition p]
  | .setCursor row col => [.setCursor row col]
  | .home => [.home]
  | .defineCustomChar slot g => [.defineCustomChar slot g]
  | .backspace => [.backspace]
  | .horizontalTab => [.horizontalTab]
  | .allDisplayOn => [.allDisplayOn]
  | .reservedE => [.reservedE]
  | .reservedF => [.reservedF]
  | .print bs => bs.map .write
  | .txByteSerial _ => []
  | .txByteParallel _ => []

/-- The words of a host program, one instruction after the other (R60). -/
def encodeProgram (is : List Instr) : List PortWord := is.flatMap encode

/-- The instruction the decoder reads from the low `nbits` bits of `w`, the bits above them 0, in the numbering of
`PortWord`; none where a bit above the port's 55 lines is set, since no such line exists. -/
def decodeTableWord (nbits w : Nat) : Option Instr :=
  if w % 2 ^ nbits < 2 ^ 55 then some (decode (BitVec.ofNat 55 (w % 2 ^ nbits))) else none

end Sys2Proof
end

