-- ==== Sys2Proof/Machine/Frame.lean ====
section
/-! DEFINITION. The serial frame: its bits, its length and the shift of the register that holds it
(`spec/40_transport.md` R77, R78; `spec/10_state.md` R13). -/
namespace Sys2Proof.Machine

/-- The level that is 1 on a line. -/
def levelOfBool (b : Bool) : Level := if b then .high else .low

/-- The number of bits of a frame, which is the width of `TXSR`: 10 for the default (R13, R77). -/
def frameLength (f : SerialFrame) : Nat := f.startBits + 8 + (if f.parity = .none then 0 else 1) + f.stopBits

/-- The data bits of a frame in the order they are sent (R77). -/
def dataBits (o : BitOrder) (v : Byte) : List Level :=
  (List.range 8).map (fun i =>
    levelOfBool (v.getLsbD (match o with
      | .lsbFirst => i
      | .msbFirst => 7 - i)))

/-- Whether a byte has an odd number of ones. -/
def oddOnes (v : Byte) : Bool := (List.range 8).foldl (fun p i => p != v.getLsbD i) false

/-- The parity bit of a byte, if the frame has one. -/
def parityBits (p : Parity) (v : Byte) : List Level :=
  match p with
  | .none => []
  | .even => [levelOfBool (oddOnes v)]
  | .odd => [levelOfBool (!oddOnes v)]
  | .mark => [.high]
  | .space => [.low]

/-- The frame of a byte, first bit sent first: start bits 0, data bits, parity, stop bits 1; with the default a start bit,
`v[0]` to `v[7]`, a stop bit (R77; the default is general knowledge by the spec's own mark, log entry 25; the other
formats, log entry 8). -/
def frameBits (f : SerialFrame) (v : Byte) : List Level :=
  List.replicate f.startBits .low ++ dataBits f.order v ++ parityBits f.parity v ++ List.replicate f.stopBits .high

/-- The level of `TXD` with `w` in the shift register: its first bit (log entry 7). -/
def headLevel (w : List Level) : Level := w.headD .high

/-- One shift of `TXSR` toward `TXD`, the mark level coming in behind the stop bit (R77, R78). -/
def shiftMark (w : List Level) : List Level := w.tail ++ [.high]

end Sys2Proof.Machine
end

