-- ==== Sys2Proof/Machine/State.lean ====
section
/-! DEFINITION. The state of the DIC as plain data, its events, the ways a step can stop, and reset
(`spec/10_state.md`, `spec/00_scope.md` R7, R8). -/
namespace Sys2Proof.Machine

/-- The event alphabet of the trace (R8). -/
inductive Event where
  /-- `OPEN(b)`: the byte-stream is opened at baud rate `b`. -/
  | opened (baud : Nat)
  /-- `CONFIG`: the parallel lines are given their directions and idle levels (R74). -/
  | config
  /-- `BUSY?(x)`: the busy line was sampled and read `x`. -/
  | busy (x : Logic)
  /-- `D=v`: line `i` carries `v[i]`. -/
  | data (v : Byte)
  /-- `SEL=a`. -/
  | sel (a : Logic)
  /-- `WR=l`. -/
  | wr (l : Level)
  /-- `TX(v)`: byte `v` was handed to the medium. -/
  | tx (v : Byte)
  /-- `DELAY(p)`. -/
  | delay (p : DelayName)
  deriving DecidableEq, Repr

/-- The phase inside the current byte (R14). `shift` refines `SEND` below the byte level: the serial transmitter has
`left` bits of the frame still to finish, at first as many as the frame has (R77, R78; log entry 7). -/
inductive Phase where
  | wait
  | drive
  | selOn
  | wrLo
  | wrHi
  | selOff
  | send
  | shift (left : Nat)
  | settle
  deriving DecidableEq, Repr

/-- `SEQ`, the sequencer state, in the place of a program counter (R14): `run op bi ph` holds the latched operation
with its operands already clamped, the index of the byte and the phase. -/
inductive SeqState where
  | idle
  | run (op : Instr) (bi : Nat) (ph : Phase)
  deriving DecidableEq, Repr

/-- The serial transmitter (R13): the line `TXD`, the shift register `TXSR` and the baud divider count `BAUDCNT`. `TXSR` holds
the bits of a frame, the next to send first: the 10 of R13's table with the default frame, as many as the frame has with
another (log entry 8). -/
structure SerialTx where
  txd     : Drive Level
  txsr    : List Level
  baudcnt : Nat
  deriving DecidableEq, Repr

/-- The lines of the Parallel transport (R12): the output latches `D`, `WR`, `SEL`, and whether `BUSY` has been made an
input (R74). -/
structure Latches where
  d         : Drive Byte
  wr        : Drive Level
  sel       : Drive Logic
  busyInput : Bool
  deriving DecidableEq, Repr

/-- The configuration of the instance with the state only that transport has: a Serial instance has no `D`, `WR`, `SEL`
and a Parallel instance has no `TXD` (R17). -/
inductive Transport where
  | serial (c : SerialConfig) (tx : SerialTx)
  | parallel (c : ParallelConfig) (l : Latches)
  deriving DecidableEq, Repr

/-- The whole state: what `spec/10_state.md` gives the DIC, then the model's record and the two agents outside it as
plain data (R6). -/
structure State where
  /-- `POS`, the cursor position (R10). -/
  pos        : Pos
  /-- `EN`, set by `begin` (R11). -/
  en         : Bool
  /-- `MODE`, `TransportConfig`, and the latches or the serial transmitter (R12, R13, R17). -/
  transport  : Transport
  /-- `SEQ` (R14). -/
  seq        : SeqState
  /-- `busy_q`, the answer of the last `isBusy` (R15, R16). -/
  busyQ      : Bool
  /-- Whether an `isBusy` has returned, so that the host may read `busy_q` (R15, R20, R145). -/
  busyQValid : Bool
  /-- The trace, oldest event first (R7, R8). -/
  trace      : List Event
  /-- The MODEL's own, for the host (log entry 2): the port words it has still to issue. The first is on the port. -/
  requests   : List PortWord
  /-- The MODEL's own, for the module (log entry 3): the levels it will have on `BUSY` at the next samples. -/
  moduleBusy : List Level
  /-- The MODEL's own (log entry 3): the number of free draws taken from `Config.busyLevel`. -/
  draws      : Nat
  deriving DecidableEq, Repr

/-- Why the machine stops with a fault. The hardware raises none (R140). -/
inductive Fault where
  /-- Raised by the sequencer where `SEQ` names a byte its operation does not have or a phase of the other transport:
  no such state is in the table of R14 and no run reaches one (`Invariant` of `Safety.lean`). SAFE: the model stops (log entry 14). -/
  | brokenSequencer
  deriving DecidableEq, Repr

/-- Where the spec gives a host action no meaning, by name (R145: "points where this spec gives no meaning and a model
must refuse rather than invent one"), with `notModelled` for an instruction without a meaning. All SAFE: the model
stops where the hardware is not described. -/
inductive Refusal where
  /-- Raised by an arm of `exec` for an instruction that has no meaning yet. SAFE. -/
  | notModelled (mnemonic : String)
  /-- Raised by every operation but `begin` while `EN = 0` (R11, U1). SAFE. -/
  | notBegun
  /-- Raised by `begin` while `EN = 1` (R11, R73, U2). SAFE. -/
  | begunTwice
  /-- Raised by the reserved selectors 0xE and 0xF (R58 item 1, U3). SAFE. -/
  | reservedSelector (sel : OpSel)
  /-- Raised by `setCursorMode` with a mode selector of 3 to 255 (R58 item 2, R93, U4). SAFE. -/
  | reservedMode (sel : Byte)
  /-- Raised by `exec` applied while `SEQ` is not `IDLE`: `op_ready = 0`, nothing can be issued (R15). The step never
  does that. SAFE (log entry 15). -/
  | notReady
  /-- Raised by a variant of `TxByte` on an instance of the other transport (R71, R72: "Requires `MODE`"). SAFE. -/
  | wrongTransport
  /-- Raised by a host that reads `busy_q` before the first `isBusy` has returned (R20, R145, U7). SAFE. -/
  | busyQUnread
  deriving DecidableEq, Repr

/-- All outputs undriven, their directions not yet configured (R12, R20). -/
def Latches.undriven : Latches :=
  { d := .undriven, wr := .undriven, sel := .undriven, busyInput := false }

/-- `TXD` undriven (R20). `TXSR` all ones, the mark level of an idle line, and `BAUDCNT` 0: DESIGN CHOICE (log entry 6),
the spec gives neither a reset value. -/
def SerialTx.undriven (c : SerialConfig) : SerialTx :=
  { txd := .undriven, txsr := List.replicate (frameLength c.frame) .high, baudcnt := 0 }

/-- The transport of a new instance. -/
def Transport.construct : TransportConfig → Transport
  | .serial c => .serial c (.undriven c)
  | .parallel c => .parallel c .undriven

/-- Construction, the only reset of the DIC (R20, R160): `POS = 0`, `EN = 0`, `SEQ = IDLE`, lines undriven, trace empty.
`busy_q` is unspecified until the first `isBusy` returns (R20); the value false is a DESIGN CHOICE (log entry 5) that
the host cannot read. Neither agent has anything to say. -/
def State.construct (c : TransportConfig) : State :=
  { pos := 0
    en := false
    transport := Transport.construct c
    seq := .idle
    busyQ := false
    busyQValid := false
    trace := []
    requests := []
    moduleBusy := []
    draws := 0 }

/-- The state after reset of the instance `Config.construction` (log entry 4). -/
def State.reset : State := State.construct Config.construction

end Sys2Proof.Machine
end

