-- ==== Sys2Proof/Machine/Glyph.lean ====
section
/-! DEFINITION. The glyph packer, a combinational function (`spec/43_glyph_packer.md` R130 to R135). -/
namespace Sys2Proof.Machine

/-- Cell (col, row), columns 1 to 5 and rows 1 to 7, is bit `5*(row-1)+(col-1)` of the bitmap (R130). -/
def cell (g : Glyph) (col row : Nat) : Bool := g.getLsbD (5 * (row - 1) + (col - 1))

/-- The 40-bit string `W` of R132: `W[39-k] = g[k]` for `k` in 0..34, `W[4:0]` stay 0. -/
def packWord (g : Glyph) : BitVec 40 :=
  (List.range 35).foldl (fun w k => if g.getLsbD k then w ||| (1#40 <<< (39 - k)) else w) 0#40

/-- Byte `Pj` of a 40-bit string: `P0 = W[39:32]` down to `P4 = W[7:0]` (R132). -/
def wordByte (w : BitVec 40) (j : Nat) : Byte := w.extractLsb' (32 - 8 * j) 8

/-- `Pack(g)`: the bytes `P0`, `P1`, `P2`, `P3`, `P4` in the order they are sent (R132, R33). -/
def pack (g : Glyph) : List Byte := (List.range 5).map (wordByte (packWord g))

/-- `Unpack`: cell `k` is bit `7 - (k mod 8)` of `P[k div 8]` (R135). For claims only: no step uses it. -/
def unpack (ps : List Byte) : Glyph :=
  (List.range 35).foldl
    (fun g k => if (ps.getD (k / 8) 0).getLsbD (7 - k % 8) then g ||| (1#35 <<< k) else g) 0#35

end Sys2Proof.Machine
end

