-- ==== Sys2Proof/Machine/Operands.lean ====
section
/-! DEFINITION. Operand assembly and the wire encoding: how each operand becomes a position or a payload byte
(`spec/30_encoding.md` R54 to R57, `spec/42_cursor_and_facade.md` R110 to R115, R122). -/
namespace Sys2Proof.Machine

/-! ### The cursor primitives -/

/-- `Advance`: `(POS + 1) mod 40` (R110; from 40 to 63, which are never stored, log entry 13). -/
def advance (p : Pos) : Pos := BitVec.ofNat 6 ((p.toNat + 1) % 40)

/-- `Retreat`: `POS - 1` where `POS > 0`, else 39 (R111). -/
def retreat (p : Pos) : Pos := if 0 < p.toNat then BitVec.ofNat 6 (p.toNat - 1) else 39

/-- `Home`: 0 (R112). -/
def homePos : Pos := 0

/-- `ClampPos(p)`: every position above 39 is replaced by 0 (R114). -/
def clampPos (p : Byte) : Pos := if 39 < p.toNat then 0 else BitVec.ofNat 6 p.toNat

/-- `r` of `Resolve`: a row other than 0 or 1 is replaced by 0 (R115). -/
def clampRow (row : Byte) : Byte := if row.toNat ≤ 1 then row else 0

/-- `c` of `Resolve`: a column above 19 is replaced by 0 (R115). -/
def clampCol (col : Byte) : Byte := if col.toNat ≤ 19 then col else 0

/-- `Resolve(row, col) = 20*r + c`; the two replacements are independent (R115). -/
def resolve (row col : Byte) : Pos := BitVec.ofNat 6 (20 * (clampRow row).toNat + (clampCol col).toNat)

/-- The position as the byte the encoder sends, 0x00 to 0x27 (R56). -/
def posByte (p : Pos) : Byte := p.setWidth 8

/-! ### Payload bytes -/

/-- The mode byte: off 0x00, on 0xFF, blink 0x88; none for a reserved selector (R56, R93). -/
def modeByte (sel : Byte) : Option Byte :=
  match sel.toNat with
  | 0 => some 0x00
  | 1 => some 0xFF
  | 2 => some 0x88
  | _ => none

/-- `slot > 3` (R95). -/
def slotOutOfRange (slot : Byte) : Bool := decide (3 < slot.toNat)

/-- The slot byte `0x1B + slot` (R56). -/
def slotByte (slot : Byte) : Byte := 0x1B + slot

/-! ### Wire sequences -/

/-- The bytes an operation hands to `TxByte`, first byte first: formats W0, WD, W1, W2, W7 with the opcodes of R54
(R33, R55, R56). `print` is the concatenation of its `write`s (R121). -/
def wireBytes : Instr → List Byte
  | .begin => []
  | .isBusy => []
  | .write b => [b]
  | .clear => [0x0D]
  | .reset => [0x1F]
  | .setBrightness level => [0x04, level]
  | .setCursorMode sel =>
    match modeByte sel with
    | some m => [0x17, m]
    | none => []
  | .setCursorPosition p => [0x10, posByte (clampPos p)]
  | .setCursor row col => [0x10, posByte (resolve row col)]
  | .home => [0x10, posByte homePos]
  | .defineCustomChar slot g => if slotOutOfRange slot then [] else 0x03 :: slotByte slot :: pack g
  | .backspace => [0x08]
  | .horizontalTab => [0x09]
  | .allDisplayOn => [0x0F]
  | .reservedE => []
  | .reservedF => []
  | .print bs => bs
  | .txByteSerial v => [v]
  | .txByteParallel v => [v]

/-- `byte[bi]` of the operation (R14). -/
def byteAt (op : Instr) (bi : Nat) : Option Byte := (wireBytes op)[bi]?

/-- The settle delay of an operation; none where it emits nothing and none for `write` (R99). -/
def settleOf : Instr → Option SettleOp
  | .begin => none
  | .isBusy => none
  | .write _ => none
  | .clear => some .clear
  | .reset => some .reset
  | .setBrightness _ => some .setBrightness
  | .setCursorMode _ => some .setCursorMode
  | .setCursorPosition _ => some .setCursorPosition
  | .setCursor _ _ => some .setCursorPosition
  | .home => some .setCursorPosition
  | .defineCustomChar slot _ => if slotOutOfRange slot then none else some .defineCustomChar
  | .backspace => some .backspace
  | .horizontalTab => some .horizontalTab
  | .allDisplayOn => some .allDisplayOn
  | .reservedE => none
  | .reservedF => none
  | .print _ => none
  | .txByteSerial _ => none
  | .txByteParallel _ => none

/-- The length of a wire sequence that a receiver can tell from its opcode byte alone (R57). -/
def wireLength (opcode : Byte) : Option Nat :=
  match opcode.toNat with
  | 0x03 => some 7
  | 0x04 => some 2
  | 0x10 => some 2
  | 0x17 => some 2
  | 0x08 => some 1
  | 0x09 => some 1
  | 0x0D => some 1
  | 0x0F => some 1
  | 0x1F => some 1
  | _ => none

/-- The row of a position, `POS div 20` (R10). -/
def rowOf (p : Pos) : Nat := p.toNat / 20

/-- The column of a position, `POS mod 20` (R10). -/
def colOf (p : Pos) : Nat := p.toNat % 20

end Sys2Proof.Machine
end

