-- ==== Sys2Proof/Machine/Ops.lean ====
section
/-! DEFINITION. The named operations on the state: the trace, the lines, the busy line, the serial transmitter, issuing
an operation and reading the port. The hardware has no exception (`spec/60_exceptions.md` R140, R143): there is no
entry and no return to write here; what stops an operation is a refusal (R145), decided by `admission`. -/
namespace Sys2Proof.Machine

/-! ### Updates of one part of the state -/

/-- `emit(e)`: append to the trace (`00_scope.md` section 6). -/
def State.emit (s : State) (e : Event) : State := { s with trace := s.trace ++ [e] }

/-- `Delay(p)`: append `DELAY(p)`; no other state changes (`00_scope.md` section 6). A parameter may be 0 and the event
omitted; the model always appends it (log entry 12). -/
def State.delay (s : State) (p : DelayName) : State := s.emit (.delay p)

def State.setPos (s : State) (p : Pos) : State := { s with pos := p }

def State.setEn (s : State) : State := { s with en := true }

def State.setSeq (s : State) (q : SeqState) : State := { s with seq := q }

def State.setTransport (s : State) (t : Transport) : State := { s with transport := t }

/-- The answer of an `isBusy`, which the host may read from then on (R15, R16). -/
def State.answerBusy (s : State) (b : Bool) : State := { s with busyQ := b, busyQValid := true }

def State.setRequests (s : State) (ws : List PortWord) : State := { s with requests := ws }

/-! ### The transport: mode and configuration -/

/-- `MODE` (R4, R17). -/
def Transport.mode : Transport → Mode
  | .serial _ _ => .serial
  | .parallel _ _ => .parallel

/-- `TransportConfig` (R17). -/
def Transport.configuration : Transport → TransportConfig
  | .serial c _ => .serial c
  | .parallel c _ => .parallel c

/-- The phase a byte begins in: `SEND` on Serial, `WAIT` on Parallel (R14). -/
def Transport.firstPhase : Transport → Phase
  | .serial _ _ => .send
  | .parallel _ _ => .wait

/-! ### The busy line -/

def opposite : Level → Level
  | .low => .high
  | .high => .low

/-- A level read with the polarity `active` (R150: the level is turned into asserted or deasserted). -/
def logicOf (active l : Level) : Logic := if l = active then .asserted else .deasserted

/-- The level that carries a logical state with the polarity `active`. -/
def levelOf (active : Level) : Logic → Level
  | .asserted => active
  | .deasserted => opposite active

/-- The level on `BUSY` at the next sample: what the module is listed to answer, else a free draw (R6; log entry 3). -/
def State.busyLevel (s : State) : Level :=
  match s.moduleBusy with
  | l :: _ => l
  | [] => Config.busyLevel s.draws

/-- The state after one sample: the answer is used up, so that the next sample is a draw of its own (R16, D29). -/
def State.dropSample (s : State) : State :=
  match s.moduleBusy with
  | _ :: ls => { s with moduleBusy := ls }
  | [] => { s with draws := s.draws + 1 }

/-- What `BusyRead()` answers (R8, R150). -/
def State.busyAnswer (s : State) (c : ParallelConfig) : Logic := logicOf c.busyActive s.busyLevel

/-- `BusyRead()`: sample the line once; `BUSY` itself is not stored (R8, R16). -/
def State.busyRead (s : State) (c : ParallelConfig) : State := s.dropSample.emit (.busy (s.busyAnswer c))

/-! ### The parallel output latches (R12, R72) -/

/-- `D <- v`. -/
def State.driveData (s : State) (c : ParallelConfig) (l : Latches) (v : Byte) : State :=
  (s.setTransport (.parallel c { l with d := .drives v })).emit (.data v)

/-- `SEL <- a`. -/
def State.driveSel (s : State) (c : ParallelConfig) (l : Latches) (a : Logic) : State :=
  (s.setTransport (.parallel c { l with sel := .drives a })).emit (.sel a)

/-- `WR <- x`. -/
def State.driveWr (s : State) (c : ParallelConfig) (l : Latches) (x : Level) : State :=
  (s.setTransport (.parallel c { l with wr := .drives x })).emit (.wr x)

/-- The lines at rest between transfers, `D` holding `v`: `WR = 1`, `SEL` deasserted, `BUSY` an input (R12, R74, R80). -/
def Latches.parked (v : Byte) : Latches :=
  { d := .drives v, wr := .drives .high, sel := .drives .deasserted, busyInput := true }

/-! ### The serial transmitter (R77, R78) -/

/-- `round(n / d)`; the spec does not say which way a tie goes, so the tie is a free value (R78; log entry 9). -/
def roundDiv (n d : Nat) : Nat :=
  if 2 * (n % d) < d then n / d
  else if d < 2 * (n % d) then n / d + 1
  else if Config.roundTieUp then n / d + 1 else n / d

/-- `DIV = round(F_REF / BAUD)`, `DIV >= 1` (R78). -/
def baudDiv (c : SerialConfig) : Nat := max 1 (roundDiv c.fRef.num.toNat (c.fRef.den * c.baud))

/-- The transmitter with `w` in the shift register: `TXD` carries its first bit, `BAUDCNT` starts at `DIV - 1`. -/
def SerialTx.loaded (c : SerialConfig) (w : List Level) : SerialTx :=
  { txd := .drives (headLevel w), txsr := w, baudcnt := baudDiv c - 1 }

/-- One reference period: `BAUDCNT` counts down; at 0 it reloads and `TXSR` shifts once (R78). -/
def SerialTx.tick (c : SerialConfig) (t : SerialTx) : SerialTx :=
  if t.baudcnt = 0 then SerialTx.loaded c (shiftMark t.txsr) else { t with baudcnt := t.baudcnt - 1 }

/-! ### Issuing an operation -/

/-- Why an operation other than `begin` is not admitted, if it is not: nothing can be issued while `SEQ` is not `IDLE`
(R15), and while `EN = 0` every operation but `begin` is refused, before any operand is tested (R11, R142). -/
def admission (s : State) : Option Refusal :=
  if s.seq ≠ .idle then some .notReady
  else if s.en then none
  else some .notBegun

/-- Issue `op`, an operation that sends at least one byte, with its operands already clamped: the cursor update first,
then `SEQ <- RUN(op, 0, first phase)` (R14, R100, R117). The bytes follow, a phase a step. -/
def issue (op : Instr) (p : Pos) (s : State) : Host.Outcome State Fault Refusal :=
  match admission s with
  | some r => .refused r
  | none => .next ((s.setPos p).setSeq (.run op 0 s.transport.firstPhase))

/-- Take the word on the port, which the DIC latches at issue (R15, R42). -/
def State.takeRequest (s : State) (rest : List PortWord) : State := s.setRequests rest

/-- Put the low `nbits` bits of `w` on the port before whatever the host has still to issue, with the sequencer ready to
take it (log entry 24). -/
def State.presentWord (s : State) (nbits w : Nat) : State :=
  { s with seq := .idle, requests := BitVec.ofNat 55 (w % 2 ^ nbits) :: s.requests }

end Sys2Proof.Machine
end

