-- ==== Sys2Proof/Machine/Flags.lean ====
section
/-! DEFINITION. What the host and the module see: the port's status bits, the observation of a run, the line levels and
the calls to the platform collaborators (`spec/10_state.md` R15, R16, `spec/00_scope.md` R7, `spec/20_memory.md` R32,
`spec/60_exceptions.md` R150 to R152). The DIC has no condition codes (R16). -/
namespace Sys2Proof.Machine

/-! ### The host command port (R15) -/

/-- `op_valid`: the host presents an operation. -/
def State.opValid (s : State) : Bool := !s.requests.isEmpty

/-- `op_ready`: 1 exactly when `SEQ = IDLE`. -/
def State.opReady (s : State) : Bool := decide (s.seq = .idle)

/-- `pos_q`: the current value of `POS`, always. -/
def State.posQ (s : State) : Pos := s.pos

/-- `busy_q` as the host reads it: refused before the first `isBusy` has returned (R20, R145, U7). -/
def State.readBusyQ (s : State) : Host.Outcome Bool Fault Refusal :=
  if s.busyQValid then .next s.busyQ else .refused .busyQUnread

/-- The bit `isBusy` puts on `busy_q` for a sample (R75). -/
def busyBit (x : Logic) : Bool := decide (x = .asserted)

/-! ### The observation of a run (R7) -/

/-- The byte a `TX` event hands to the medium. -/
def Event.txByte : Event → Option Byte
  | .tx v => some v
  | .opened _ => none
  | .config => none
  | .busy _ => none
  | .data _ => none
  | .sel _ => none
  | .wr _ => none
  | .delay _ => none

/-- The byte stream: the values of the `TX` events in order. -/
def byteStream (tr : List Event) : List Byte := tr.filterMap Event.txByte

/-- The last byte sent, 0x00 if none yet (R80). -/
def lastByte (tr : List Event) : Byte := (byteStream tr).getLast?.getD 0

/-- What a claim about a complete run may speak of. -/
structure Observation where
  trace : List Event
  bytes : List Byte
  pos   : Pos
  busyQ : Option Bool
  deriving DecidableEq, Repr

/-- The observation of a complete run; a run that is not complete has none (R7). -/
def State.observation (s : State) : Option Observation :=
  if s.opReady then
    some { trace := s.trace
           bytes := byteStream s.trace
           pos := s.pos
           busyQ := if s.busyQValid then some s.busyQ else none }
  else none

/-- The duration of a delay: a free value, but `T_SETTLE[clear]` and `T_SETTLE[reset]` are longer than
`T_SETTLE[setCursorPosition]` (R4, R99). -/
def duration (p : DelayName) : Nat :=
  match p with
  | .settle .clear => Config.baseDuration (.settle .setCursorPosition) + 1 + Config.baseDuration p
  | .settle .reset => Config.baseDuration (.settle .setCursorPosition) + 1 + Config.baseDuration p
  | _ => Config.baseDuration p

/-- The duration of an event: a delay's, or none that the spec names (R171). -/
def Event.duration : Event → Nat
  | .delay p => Machine.duration p
  | .opened _ => 0
  | .config => 0
  | .busy _ => 0
  | .data _ => 0
  | .sel _ => 0
  | .wr _ => 0
  | .tx _ => 0

/-- "The time an operation takes is the sum of its events' durations" (R171), the bit times of a frame left out. -/
def traceTime (tr : List Event) : Nat := (tr.map Event.duration).sum

/-! ### The lines -/

/-- The level a line carries, through `f`; an undriven line carries none (R20). -/
def lineOf {α : Type} (f : α → Level) : Drive α → Drive Level
  | .undriven => .undriven
  | .drives v => .drives (f v)

/-- Data line `i` carries `D[i]` (R32). -/
def Latches.dataLine (l : Latches) (i : Nat) : Drive Level :=
  lineOf (fun v => levelOfBool (v.getLsbD i)) l.d

/-- The level on the select line, by `SEL_ACTIVE` (R12). -/
def Latches.selLine (l : Latches) (c : ParallelConfig) : Drive Level := lineOf (levelOf c.selActive) l.sel

/-! ### The platform collaborators (R150 to R152) -/

/-- A direction of `configureDirection(pin, mode)`. -/
inductive Direction where
  | output
  | input
  deriving DecidableEq, Repr

/-- A call of a collaborator's contract. The delay primitive has two granularities and the source does not say which
delay uses which (`90_conflicts.md` C6), so the call keeps the name. -/
inductive Call where
  | configureDirection (pin : LineId) (d : Direction)
  | writeLine (pin : LineId) (l : Level)
  /-- `readLine(pin)`, which answered the level `l`. -/
  | readLine (pin : LineId) (l : Level)
  | openStream (baudRate : Nat)
  | sendByte (v : Byte)
  | sleep (p : DelayName)
  deriving DecidableEq, Repr

/-- The eight `writeLine` calls of `D <- v`. The spec does not order the lines among themselves (R150, U18); ascending
order is a DESIGN CHOICE (log entry 22). -/
def dataCalls (c : ParallelConfig) (v : Byte) : List Call :=
  (List.range 8).map (fun i => .writeLine (c.pinD.toList.getD i 0) (levelOfBool (v.getLsbD i)))

/-- The calls of an event on the Serial transport: `OPEN` is `open`, `TX` is `sendByte` (R151). -/
def Event.serialCalls : Event → List Call
  | .opened b => [.openStream b]
  | .tx v => [.sendByte v]
  | .delay p => [.sleep p]
  | .config => []
  | .busy _ => []
  | .data _ => []
  | .sel _ => []
  | .wr _ => []

/-- The calls of an event on the Parallel transport: directions and idle levels at `CONFIG` (R74), a `writeLine` for each
line written, a `readLine` for each sample (R150). `TX` marks the end of the strobe and calls nothing. -/
def Event.parallelCalls (c : ParallelConfig) : Event → List Call
  | .config =>
    c.pinD.toList.map (fun p => .configureDirection p .output) ++
      [.configureDirection c.pinWr .output, .configureDirection c.pinSel .output, .configureDirection c.pinBusy .input] ++
      dataCalls c 0 ++ [.writeLine c.pinWr .high, .writeLine c.pinSel (levelOf c.selActive .deasserted)]
  | .busy x => [.readLine c.pinBusy (levelOf c.busyActive x)]
  | .data v => dataCalls c v
  | .sel a => [.writeLine c.pinSel (levelOf c.selActive a)]
  | .wr l => [.writeLine c.pinWr l]
  | .delay p => [.sleep p]
  | .tx _ => []
  | .opened _ => []

/-- The calls a trace makes on an instance of configuration `c`. -/
def collaboratorCalls : TransportConfig → List Event → List Call
  | .serial _, tr => tr.flatMap Event.serialCalls
  | .parallel c, tr => tr.flatMap (Event.parallelCalls c)

end Sys2Proof.Machine
end

