-- ==== Sys2Proof/Machine/Sequencer.lean ====
section
/-! DEFINITION. The phases of the sequencer, one step each (`spec/10_state.md` R14; `TxByte`: `spec/40_transport.md` R71,
R72; the settle delay: `spec/41_protocol_encoder.md` R99). -/
namespace Sys2Proof.Machine

/-- The end of byte `bi`: the next byte from its first phase if a byte remains, else `SETTLE` (R14). `bi` stays at the
last index in `SETTLE`, where nothing reads it (log entry 11). -/
def afterByte (op : Instr) (bi : Nat) (s : State) : State :=
  if bi + 1 < (wireBytes op).length then s.setSeq (.run op (bi + 1) s.transport.firstPhase)
  else s.setSeq (.run op bi .settle)

/-- `WAIT`: one poll. Asserted: `Delay(T_POLL)` and stay, without a bound. Deasserted: `DRIVE` (R72 step (a), R76). -/
def phaseWait (c : ParallelConfig) (op : Instr) (bi : Nat) (s : State) : State :=
  match s.busyAnswer c with
  | .asserted => (s.busyRead c).delay .poll
  | .deasserted => (s.busyRead c).setSeq (.run op bi .drive)

/-- `DRIVE`: `D <- byte[bi]` (R72 step (b)). -/
def phaseDrive (c : ParallelConfig) (l : Latches) (op : Instr) (bi : Nat) (v : Byte) (s : State) : State :=
  (s.driveData c l v).setSeq (.run op bi .selOn)

/-- `SEL_ON`: `SEL <- asserted` (R72 step (c)). -/
def phaseSelOn (c : ParallelConfig) (l : Latches) (op : Instr) (bi : Nat) (s : State) : State :=
  (s.driveSel c l .asserted).setSeq (.run op bi .wrLo)

/-- `WR_LO`: `WR <- 0`; `Delay(T_WR_LOW)` (R72 step (c)). -/
def phaseWrLo (c : ParallelConfig) (l : Latches) (op : Instr) (bi : Nat) (s : State) : State :=
  ((s.driveWr c l .low).delay .wrLow).setSeq (.run op bi .wrHi)

/-- `WR_HI`: `WR <- 1`; `Delay(T_WR_HIGH)` (R72 step (c)). -/
def phaseWrHi (c : ParallelConfig) (l : Latches) (op : Instr) (bi : Nat) (s : State) : State :=
  ((s.driveWr c l .high).delay .wrHigh).setSeq (.run op bi .selOff)

/-- `SEL_OFF`: `SEL <- deasserted`; `emit(TX(byte[bi]))`; the byte ends (R72 step (d), R14). -/
def phaseSelOff (c : ParallelConfig) (l : Latches) (op : Instr) (bi : Nat) (v : Byte) (s : State) : State :=
  afterByte op bi ((s.driveSel c l .deasserted).emit (.tx v))

/-- `SEND`: `emit(TX(byte[bi]))`, and the transmitter takes the byte's frame (R71, R77; log entry 7). -/
def phaseSend (c : SerialConfig) (op : Instr) (bi : Nat) (v : Byte) (s : State) : State :=
  ((s.setTransport (.serial c (SerialTx.loaded c (frameBits c.frame v)))).emit (.tx v)).setSeq
    (.run op bi (.shift (frameLength c.frame)))

/-- One reference period of a frame with `left` bits to finish; the last one ends the byte with `Delay(T_GAP)` (R71, R77,
R78; log entry 7). -/
def phaseShift (c : SerialConfig) (t : SerialTx) (op : Instr) (bi left : Nat) (s : State) : State :=
  let s' := s.setTransport (.serial c (t.tick c))
  if t.baudcnt ≠ 0 then s'
  else if 1 < left then s'.setSeq (.run op bi (.shift (left - 1)))
  else afterByte op bi (s'.delay .gap)

/-- `SETTLE`: `Delay(T_SETTLE[op])` if the operation has one; the operation returns (R14, R99). -/
def phaseSettle (op : Instr) (s : State) : State :=
  match settleOf op with
  | some p => (s.delay (.settle p)).setSeq .idle
  | none => s.setSeq .idle

/-- The phase `ph` of byte `bi`, of value `v`, on the transport of the instance: the table of R14. A phase of the other
transport is in no row of it (log entry 14). -/
def runPhase (op : Instr) (bi : Nat) (ph : Phase) (v : Byte) (s : State) : Host.Outcome State Fault Refusal :=
  match s.transport, ph with
  | .parallel c _, .wait => .next (phaseWait c op bi s)
  | .parallel c l, .drive => .next (phaseDrive c l op bi v s)
  | .parallel c l, .selOn => .next (phaseSelOn c l op bi s)
  | .parallel c l, .wrLo => .next (phaseWrLo c l op bi s)
  | .parallel c l, .wrHi => .next (phaseWrHi c l op bi s)
  | .parallel c l, .selOff => .next (phaseSelOff c l op bi v s)
  | .parallel _ _, .send => .fault .brokenSequencer
  | .parallel _ _, .shift _ => .fault .brokenSequencer
  | .parallel _ _, .settle => .next (phaseSettle op s)
  | .serial c _, .send => .next (phaseSend c op bi v s)
  | .serial c t, .shift left => .next (phaseShift c t op bi left s)
  | .serial _ _, .settle => .next (phaseSettle op s)
  | .serial _ _, .wait => .fault .brokenSequencer
  | .serial _ _, .drive => .fault .brokenSequencer
  | .serial _ _, .selOn => .fault .brokenSequencer
  | .serial _ _, .wrLo => .fault .brokenSequencer
  | .serial _ _, .wrHi => .fault .brokenSequencer
  | .serial _ _, .selOff => .fault .brokenSequencer

/-- One step of a running operation (R14). -/
def sequence (op : Instr) (bi : Nat) (ph : Phase) (s : State) : Host.Outcome State Fault Refusal :=
  match byteAt op bi with
  | some v => runPhase op bi ph v s
  | none => .fault .brokenSequencer

end Sys2Proof.Machine
end

