-- ==== Sys2Proof/Machine/Encoder.lean ====
section
/-! DEFINITION. The nine operations of the protocol encoder (`spec/41_protocol_encoder.md` R90 to R98, R100). Each updates
the cursor and issues its wire sequence; the sequencer sends the bytes and applies the settle delay. -/
namespace Sys2Proof.Machine

/-- `clear`: `POS <- 0`, then 0x0D (R90). -/
def execClear (s : State) : Host.Outcome State Fault Refusal := issue .clear homePos s

/-- `reset`, the module's reset command: `POS <- 0`, then 0x1F; the DIC itself is not reset (R91). -/
def execReset (s : State) : Host.Outcome State Fault Refusal := issue .reset homePos s

/-- `setBrightness(level)`: 0x04, `level` unchanged (R92). -/
def execSetBrightness (level : Byte) (s : State) : Host.Outcome State Fault Refusal :=
  issue (.setBrightness level) s.pos s

/-- `setCursorMode(mode)`: 0x17 and the mode byte; a reserved selector is refused after the `EN` test and before any byte
(R93, R142). -/
def execSetCursorMode (sel : Byte) (s : State) : Host.Outcome State Fault Refusal :=
  match admission s with
  | some r => .refused r
  | none =>
    match modeByte sel with
    | some _ => issue (.setCursorMode sel) s.pos s
    | none => .refused (.reservedMode sel)

/-- `setCursorPosition(p)`: `q` is `p`, or 0 where `p > 39`; `POS <- q`, then 0x10, `q` (R94). -/
def execSetCursorPosition (p : Byte) (s : State) : Host.Outcome State Fault Refusal :=
  issue (.setCursorPosition (posByte (clampPos p))) (clampPos p) s

/-- `defineCustomChar(slot, g)`: with `slot > 3` a no-op, no byte, no delay, no state change; else 0x03, `0x1B + slot` and
the packed glyph (R95). -/
def execDefineCustomChar (slot : Byte) (g : Glyph) (s : State) : Host.Outcome State Fault Refusal :=
  match admission s with
  | some r => .refused r
  | none => if slotOutOfRange slot then .next s else issue (.defineCustomChar slot g) s.pos s

/-- `backspace`: `POS` one back, then 0x08 (R96). -/
def execBackspace (s : State) : Host.Outcome State Fault Refusal := issue .backspace (retreat s.pos) s

/-- `horizontalTab`: `POS` one forward, then 0x09 (R97). -/
def execHorizontalTab (s : State) : Host.Outcome State Fault Refusal := issue .horizontalTab (advance s.pos) s

/-- `allDisplayOn`: 0x0F (R98). -/
def execAllDisplayOn (s : State) : Host.Outcome State Fault Refusal := issue .allDisplayOn s.pos s

end Sys2Proof.Machine
end

