-- ==== Sys2Proof/Machine/Facade.lean ====
section
/-! DEFINITION. The operations of the cursor model and the façade (`spec/42_cursor_and_facade.md` R118 to R121) and the
reserved selectors (`spec/30_encoding.md` R58 item 1). -/
namespace Sys2Proof.Machine

/-- `write(b)`: `POS` one forward, once, then the byte itself, whatever its value (R113, R118). -/
def execWrite (b : Byte) (s : State) : Host.Outcome State Fault Refusal := issue (.write b) (advance s.pos) s

/-- `setCursor(row, col)`: `setCursorPosition(Resolve(row, col))` (R115, R119). The latched operands are the clamped ones
(R14; log entry 19). -/
def execSetCursor (row col : Byte) (s : State) : Host.Outcome State Fault Refusal :=
  issue (.setCursor (clampRow row) (clampCol col)) (resolve row col) s

/-- `home`: `setCursorPosition(0)` (R120). -/
def execHome (s : State) : Host.Outcome State Fault Refusal := issue .home homePos s

/-- `print(s)`: the host issues one `write` for each byte, in order, before what it has still to issue; an empty list
does nothing (R61, R121; log entry 16). -/
def execPrint (bs : List Byte) (s : State) : Host.Outcome State Fault Refusal :=
  if s.seq ≠ .idle then .refused .notReady
  else .next (s.setRequests (encode (.print bs) ++ s.requests))

/-- `op_sel` 0xE: reserved, the spec gives it no meaning (R58 item 1; whatever `EN` is, log entry 18). -/
def execReservedE (_ : State) : Host.Outcome State Fault Refusal := .refused (.reservedSelector 0xE)

/-- `op_sel` 0xF: reserved, the spec gives it no meaning (R58 item 1). -/
def execReservedF (_ : State) : Host.Outcome State Fault Refusal := .refused (.reservedSelector 0xF)

end Sys2Proof.Machine
end

