-- ==== Sys2Proof/Machine/Transport.lean ====
section
/-! DEFINITION. The operations of the transport and the two variants of its internal primitive
(`spec/40_transport.md` R71 to R75). -/
namespace Sys2Proof.Machine

/-- The transport after `begin`. Serial: `TXD` goes to the idle level, mark. Parallel: `D`, `WR`, `SEL` become outputs at
`0x00`, 1, deasserted and `BUSY` an input (R12, R20, R73, R74). -/
def Transport.started : Transport → Transport
  | .serial c t => .serial c { t with txd := .drives .high }
  | .parallel c _ => .parallel c (.parked 0)

/-- `OPEN(BAUD)` on Serial, `CONFIG` on Parallel (R73). -/
def Transport.startEvent : Transport → Event
  | .serial c _ => .opened c.baud
  | .parallel _ _ => .config

/-- `begin` (R73): refused while `EN = 1`; else the transport is started, and `EN <- 1`. No byte, no delay, `POS`
unchanged. -/
def execBegin (s : State) : Host.Outcome State Fault Refusal :=
  if s.seq ≠ .idle then .refused .notReady
  else if s.en then .refused .begunTwice
  else .next (((s.setTransport s.transport.started).emit s.transport.startEvent).setEn)

/-- `isBusy` (R75). Parallel: one `BusyRead()`, its answer to `busy_q`. Serial: `busy_q <- 0`, no line read, no event. -/
def execIsBusy (s : State) : Host.Outcome State Fault Refusal :=
  match admission s with
  | some r => .refused r
  | none =>
    match s.transport with
    | .parallel c _ => .next ((s.busyRead c).answerBusy (busyBit (s.busyAnswer c)))
    | .serial _ _ => .next (s.answerBusy false)

/-- `TxByte(v)`, Serial variant (R70, R71): the transfer of one byte, `POS` unchanged. Run on its own it is a one-byte
sequence without a settle delay (log entry 17). -/
def execTxByteSerial (v : Byte) (s : State) : Host.Outcome State Fault Refusal :=
  match s.transport with
  | .serial _ _ => issue (.txByteSerial v) s.pos s
  | .parallel _ _ => .refused .wrongTransport

/-- `TxByte(v)`, Parallel variant (R70, R72), likewise (log entry 17). -/
def execTxByteParallel (v : Byte) (s : State) : Host.Outcome State Fault Refusal :=
  match s.transport with
  | .parallel _ _ => issue (.txByteParallel v) s.pos s
  | .serial _ _ => .refused .wrongTransport

end Sys2Proof.Machine
end

