-- ==== Sys2Proof/Machine/Dispatch.lean ====
section
/-! DEFINITION. One arm for each instruction. -/
namespace Sys2Proof.Machine

def exec (i : Instr) (s : State) : Host.Outcome State Fault Refusal :=
  match i with
  | .begin => Sys2Proof.Machine.execBegin s
  | .isBusy => Sys2Proof.Machine.execIsBusy s
  | .write b => Sys2Proof.Machine.execWrite b s
  | .clear => Sys2Proof.Machine.execClear s
  | .reset => Sys2Proof.Machine.execReset s
  | .setBrightness level => Sys2Proof.Machine.execSetBrightness level s
  | .setCursorMode sel => Sys2Proof.Machine.execSetCursorMode sel s
  | .setCursorPosition p => Sys2Proof.Machine.execSetCursorPosition p s
  | .setCursor row col => Sys2Proof.Machine.execSetCursor row col s
  | .home => Sys2Proof.Machine.execHome s
  | .defineCustomChar slot g => Sys2Proof.Machine.execDefineCustomChar slot g s
  | .backspace => Sys2Proof.Machine.execBackspace s
  | .horizontalTab => Sys2Proof.Machine.execHorizontalTab s
  | .allDisplayOn => Sys2Proof.Machine.execAllDisplayOn s
  | .reservedE => Sys2Proof.Machine.execReservedE s
  | .reservedF => Sys2Proof.Machine.execReservedF s
  | .print bs => Sys2Proof.Machine.execPrint bs s
  | .txByteSerial v => Sys2Proof.Machine.execTxByteSerial v s
  | .txByteParallel v => Sys2Proof.Machine.execTxByteParallel v s

end Sys2Proof.Machine
end

