-- ==== Sys2Proof/Machine/Step.lean ====
section
/-! DEFINITION. One step of the machine (`spec/10_state.md` R14, R15; `spec/00_scope.md` R5). -/
namespace Sys2Proof.Machine

/-- While `SEQ = IDLE` the operation on the port, if there is one, is latched and issued; without one the DIC waits
(R15, R20). While an operation runs, its next phase is done, and the port is not looked at (R14, R42). One phase a step:
log entry 10. -/
def step (s : State) : Host.Outcome State Fault Refusal :=
  match s.seq with
  | .idle =>
    match s.requests with
    | [] => .next s
    | w :: rest => exec (decode w) (s.takeRequest rest)
  | .run op bi ph => sequence op bi ph s

/-- The state with an instruction's word on the host command port (log entry 24). -/
def State.withFetchWord (s : State) (nbits w : Nat) : State := s.presentWord nbits w

end Sys2Proof.Machine
end

