-- ==== Sys2Proof/Safety.lean ====
section
/-! DEFINITION. The terms claims are stated in: runs, the invariant, the traces the spec gives a transfer and an operation,
and what an operation does from issue to return. None of it is used by the step. -/
namespace Sys2Proof.Machine

/-- `n` steps, stopping at the first fault or refusal. -/
def run : Nat → State → Host.Outcome State Fault Refusal
  | 0, s => .next s
  | n + 1, s =>
    match step s with
    | .next t => run n t
    | .fault r => .fault r
    | .refused r => .refused r

/-! ### The invariant -/

/-- `0 <= POS <= 39` (R23). -/
def PosOk (s : State) : Prop := s.pos.toNat ≤ 39

/-- The phases of the transport's own rows in the table of R14; the frame being sent has a bit left (R77). -/
def phaseFits : Transport → Phase → Bool
  | .parallel _ _, .wait => true
  | .parallel _ _, .drive => true
  | .parallel _ _, .selOn => true
  | .parallel _ _, .wrLo => true
  | .parallel _ _, .wrHi => true
  | .parallel _ _, .selOff => true
  | .parallel _ _, .settle => true
  | .parallel _ _, .send => false
  | .parallel _ _, .shift _ => false
  | .serial _ _, .send => true
  | .serial c _, .shift left => decide (1 ≤ left ∧ left ≤ frameLength c.frame)
  | .serial _ _, .settle => true
  | .serial _ _, .wait => false
  | .serial _ _, .drive => false
  | .serial _ _, .selOn => false
  | .serial _ _, .wrLo => false
  | .serial _ _, .wrHi => false
  | .serial _ _, .selOff => false

/-- `SEQ` is a state of the table of R14: an operation runs only after `begin`, `bi` is the index of one of its bytes, the
phase belongs to the transport, and `SETTLE` comes after the last byte. -/
def SeqOk (s : State) : Prop :=
  match s.seq with
  | .idle => True
  | .run op bi ph =>
    s.en = true ∧ bi < (wireBytes op).length ∧ phaseFits s.transport ph = true ∧
      (ph = .settle → bi + 1 = (wireBytes op).length)

/-- The lines of a Parallel instance in each phase (R72, R80): at rest between transfers with `D` the last byte sent;
during a transfer `D` is the byte, and `WR` is low only while `SEL` is asserted. -/
def latchesIn (seq : SeqState) (tr : List Event) : Option Latches :=
  match seq with
  | .idle => some (.parked (lastByte tr))
  | .run op bi ph =>
    match byteAt op bi with
    | none => none
    | some v =>
      match ph with
      | .wait => some (.parked (lastByte tr))
      | .drive => some (.parked (lastByte tr))
      | .selOn => some (.parked v)
      | .wrLo => some { Latches.parked v with sel := .drives .asserted }
      | .wrHi => some { Latches.parked v with sel := .drives .asserted, wr := .drives .low }
      | .selOff => some { Latches.parked v with sel := .drives .asserted }
      | .send => none
      | .shift _ => none
      | .settle => some (.parked (lastByte tr))

/-- What `TXSR` holds after `k` shifts of a frame: the bits still to send, marks behind them. -/
def shifted (w : List Level) (k : Nat) : List Level := Nat.iterate shiftMark k w

/-- The serial transmitter in each phase (R77, R78): at the idle level between bytes; during a frame `TXD` carries the
first bit of `TXSR`, and `BAUDCNT` is below `DIV`. -/
def txIn (c : SerialConfig) (seq : SeqState) (t : SerialTx) : Prop :=
  match seq with
  | .idle => t.txd = .drives .high ∧ t.txsr = List.replicate (frameLength c.frame) .high
  | .run op bi ph =>
    match ph with
    | .shift left =>
      ∃ v, byteAt op bi = some v ∧ t.txsr = shifted (frameBits c.frame v) (frameLength c.frame - left) ∧
        t.txd = .drives (headLevel t.txsr) ∧ t.baudcnt < baudDiv c
    | _ => t.txd = .drives .high ∧ t.txsr = List.replicate (frameLength c.frame) .high

/-- Until `begin` the lines are undriven and no byte has been sent (R11, R12, R20); afterwards the lines are what the
phase says. -/
def LinesOk (s : State) : Prop :=
  match s.transport with
  | .parallel _ l => if s.en then latchesIn s.seq s.trace = some l else l = .undriven ∧ byteStream s.trace = []
  | .serial c t => if s.en then txIn c s.seq t else t = .undriven c ∧ byteStream s.trace = []

/-- The states a run can reach satisfy this, and a step keeps it. -/
structure Invariant (s : State) : Prop where
  pos   : PosOk s
  seq   : SeqOk s
  lines : LinesOk s

/-- `begin` has returned and no operation runs, so one can be issued (R11, R15). -/
structure Ready (s : State) : Prop where
  inv  : Invariant s
  en   : s.en = true
  idle : s.seq = .idle

/-! ### The traces of the spec -/

/-- The trace of a serial transfer (R71). -/
def serialTransfer (v : Byte) : List Event := [.tx v, .delay .gap]

/-- The trace of steps (b), (c), (d) of a parallel transfer (R72). -/
def strobe (v : Byte) : List Event :=
  [.data v, .sel .asserted, .wr .low, .delay .wrLow, .wr .high, .delay .wrHigh, .sel .deasserted, .tx v]

/-- The trace of a parallel transfer whose busy-wait reads `asserted` `k` times (R72). -/
def parallelTransfer (k : Nat) (v : Byte) : List Event :=
  (List.replicate k [Event.busy .asserted, Event.delay .poll]).flatten ++ .busy .deasserted :: strobe v

/-- The trace of the bytes of an operation; `ks` lists how often each byte's busy-wait reads `asserted`. -/
def transfersTrace (t : Transport) (ks : List Nat) (bytes : List Byte) : List Event :=
  match t with
  | .serial _ _ => bytes.flatMap serialTransfer
  | .parallel _ _ => (List.zipWith parallelTransfer ks bytes).flatten

/-- The trace of an operation: its bytes in order, then its settle delay if it has one (R100). -/
def operationTrace (t : Transport) (ks : List Nat) (bytes : List Byte) (settle : Option SettleOp) : List Event :=
  transfersTrace t ks bytes ++ settle.toList.map (fun o => .delay (.settle o))

/-- The levels with which the module answers busy-waits that read `asserted` `k` times, for each `k` of `ks`; on Serial
the line is never read (R71, R72). -/
def moduleAnswers (t : Transport) (ks : List Nat) : List Level :=
  match t with
  | .serial _ _ => []
  | .parallel c _ => ks.flatMap (fun k => List.replicate k c.busyActive ++ [opposite c.busyActive])

/-! ### An operation from issue to return -/

/-- `t` is `s` after an operation that left `POS` at `p`, appended `tr` to the trace and used up the module's answers but
for `rest`: every other part of the state is as before, the lines are at rest, and the sequencer is idle. -/
structure Returned (s t : State) (p : Pos) (tr : List Event) (rest : List Level) : Prop where
  seq        : t.seq = .idle
  pos        : t.pos = p
  trace      : t.trace = s.trace ++ tr
  moduleBusy : t.moduleBusy = rest
  config     : t.transport.configuration = s.transport.configuration
  en         : t.en = s.en
  busyQ      : t.busyQ = s.busyQ
  busyQValid : t.busyQValid = s.busyQValid
  requests   : t.requests = s.requests
  draws      : t.draws = s.draws
  inv        : Invariant t

/-- `exec i` at `s` issues `op` with `POS` at `p` and changes nothing else, and from there, however often the module
answers `asserted` before each byte, the steps that follow send `bytes`, apply `settle` and return. -/
def Performs (i op : Instr) (s : State) (p : Pos) (bytes : List Byte) (settle : Option SettleOp) : Prop :=
  exec i s = .next ((s.setPos p).setSeq (.run op 0 s.transport.firstPhase)) ∧
    ∀ ks rest, ks.length = bytes.length → s.moduleBusy = moduleAnswers s.transport ks ++ rest →
      ∃ n t, run n ((s.setPos p).setSeq (.run op 0 s.transport.firstPhase)) = .next t ∧
        Returned s t p (operationTrace s.transport ks bytes settle) rest

/-! ### The packing table -/

/-- The table of R131: for each byte `P0` to `P4`, bit 7 first, the cell as (column, row), or none for the bits that carry
no cell. -/
def packTable : List (List (Option (Nat × Nat))) :=
  [[some (1, 1), some (2, 1), some (3, 1), some (4, 1), some (5, 1), some (1, 2), some (2, 2), some (3, 2)],
   [some (4, 2), some (5, 2), some (1, 3), some (2, 3), some (3, 3), some (4, 3), some (5, 3), some (1, 4)],
   [some (2, 4), some (3, 4), some (4, 4), some (5, 4), some (1, 5), some (2, 5), some (3, 5), some (4, 5)],
   [some (5, 5), some (1, 6), some (2, 6), some (3, 6), some (4, 6), some (5, 6), some (1, 7), some (2, 7)],
   [some (3, 7), some (4, 7), some (5, 7), none, none, none, none, none]]

/-- What the table puts in bit `7 - n` of byte `Pj`. -/
def tableBit (g : Glyph) (j n : Nat) : Bool :=
  match (packTable.getD j []).getD n none with
  | some (col, row) => cell g col row
  | none => false

/-! ### The serial line -/

/-- The number of ones of a byte. -/
def onesOf (v : Byte) : Nat := (List.range 8).countP (fun i => v.getLsbD i)

/-- The level of the parity bit of a byte (R77); no bit time of a frame without parity carries it. -/
def parityLevel (p : Parity) (v : Byte) : Level :=
  match p with
  | .none => .high
  | .even => if onesOf v % 2 = 0 then .low else .high
  | .odd => if onesOf v % 2 = 0 then .high else .low
  | .mark => .high
  | .space => .low

/-- The level of `TXD` in bit time `j` of the frame of `v` (R77). -/
def frameLevel (f : SerialFrame) (v : Byte) (j : Nat) : Level :=
  if j < f.startBits then .low
  else if j < f.startBits + 8 then
    levelOfBool (v.getLsbD (if f.order = .lsbFirst then j - f.startBits else 7 - (j - f.startBits)))
  else if f.parity ≠ .none ∧ j = f.startBits + 8 then parityLevel f.parity v
  else .high

/-! ### Whole runs -/

/-- The last column but one of the table of R50: what an instruction does to `POS`. -/
def posEffect (i : Instr) (p : Pos) : Pos :=
  match i with
  | .begin => p
  | .isBusy => p
  | .write _ => advance p
  | .clear => 0
  | .reset => 0
  | .setBrightness _ => p
  | .setCursorMode _ => p
  | .setCursorPosition q => clampPos q
  | .setCursor row col => resolve row col
  | .home => 0
  | .defineCustomChar _ _ => p
  | .backspace => retreat p
  | .horizontalTab => advance p
  | .allDisplayOn => p
  | .reservedE => p
  | .reservedF => p
  | .print bs => Nat.iterate advance bs.length p
  | .txByteSerial _ => p
  | .txByteParallel _ => p

/-- The bytes the running operation has not yet handed to the medium. -/
def remainingBytes (s : State) : List Byte :=
  match s.seq with
  | .idle => []
  | .run op bi ph =>
    match ph with
    | .settle => []
    | .shift _ => (wireBytes op).drop (bi + 1)
    | _ => (wireBytes op).drop bi

/-- The bytes sent, then the bytes of the running operation still to send, then the bytes of the operations the host has
still to issue, in issue order. -/
def owedBytes (s : State) : List Byte :=
  byteStream s.trace ++ remainingBytes s ++ s.requests.flatMap (fun w => wireBytes (decode w))

/-- `POS` after the operations the host has still to issue, in issue order. -/
def owedPos (s : State) : Pos := s.requests.foldl (fun p w => posEffect (decode w) p) s.pos

/-- Nothing runs and the host has nothing more to issue. -/
def Finished (s : State) : Prop := s.seq = .idle ∧ s.requests = []

end Sys2Proof.Machine
end

