-- ==== Sys2Proof/Certificates/Slice0/Obligations.lean ====
section
/-! DEFINITION. The statements about the model. Where a statement rests on a choice of the model or on a passage the spec
marks as its own decision or inference, its docstring says so; such a statement is 'derived' in OBLIGATIONS.json. -/

open Sys2Proof Sys2Proof.Machine

/-! ### The encodings -/

/-- Words written out from the selector table of `30_encoding.md` section 2 decode to the operations they stand for. The
numbering is the spec's decision D2, the order of the ports in a word the model's (log entry 1). -/
def Obligations.SampleWordsDecode : Prop :=
  decode 0x0 = .begin ∧ decode 0x412 = .write 0x41 ∧ decode 0x885 = .setBrightness 0x88 ∧
    decode 0x13018 = .setCursor 1 19 ∧ decode 0x7FFFFFFFF0002A = .defineCustomChar 2 0x7FFFFFFFF ∧
    decode 0xD = .allDisplayOn ∧ decode 0xE = .reservedE

/-- Decoding the words of an instruction gives back what the instruction is issued as: the instruction itself with every
operand for the sixteen selectors, one `write` for each byte of a `print`, nothing for the internal `TxByte`. The
numbering is the spec's decision D2, the order of the ports in a word the model's (log entry 1). -/
def Obligations.DecodeOfEncodeGivesTheInstruction : Prop :=
  ∀ i : Instr, (encode i).map decode = i.issuedAs

/-- A port the operation's format does not use has no effect (formats H0, H1, H2, HG of `30_encoding.md` section 2; the
spec's decisions D2, D4). -/
def Obligations.UnusedPortsHaveNoEffect : Prop :=
  (∀ op ∈ [0x0#4, 0x1#4, 0x3#4, 0x4#4, 0x9#4, 0xB#4, 0xC#4, 0xD#4], ∀ a b g a' b' g',
      decode (portWord op a b g) = decode (portWord op a' b' g')) ∧
    (∀ op ∈ [0x2#4, 0x5#4, 0x6#4, 0x7#4], ∀ a b g b' g',
      decode (portWord op a b g) = decode (portWord op a b' g')) ∧
    (∀ a b g g', decode (portWord 0x8 a b g) = decode (portWord 0x8 a b g')) ∧
    (∀ a b g b', decode (portWord 0xA a b g) = decode (portWord 0xA a b' g))

/-- The wire opcodes and payload ranges of `30_encoding.md` section 3, the glyph bytes those of `Pack`. That `home` sends the
position 0 is the spec's decision D16, that the selectors 0, 1, 2 stand for off, on, blink its decisions D2 and D3. -/
def Obligations.WireOpcodesAndPayloads : Prop :=
  wireBytes .clear = [0x0D] ∧ wireBytes .reset = [0x1F] ∧ wireBytes .backspace = [0x08] ∧
    wireBytes .horizontalTab = [0x09] ∧ wireBytes .allDisplayOn = [0x0F] ∧
    (∀ level, wireBytes (.setBrightness level) = [0x04, level]) ∧
    wireBytes (.setCursorMode 0) = [0x17, 0x00] ∧ wireBytes (.setCursorMode 1) = [0x17, 0xFF] ∧
    wireBytes (.setCursorMode 2) = [0x17, 0x88] ∧
    (∀ p, ∃ q : Byte, q.toNat ≤ 0x27 ∧ wireBytes (.setCursorPosition p) = [0x10, q]) ∧
    (∀ row col, ∃ q : Byte, q.toNat ≤ 0x27 ∧ wireBytes (.setCursor row col) = [0x10, q]) ∧
    wireBytes .home = [0x10, 0x00] ∧
    (∀ slot g, slot.toNat ≤ 3 →
      (pack g).length = 5 ∧ wireBytes (.defineCustomChar slot g) = 0x03 :: (0x1B + slot) :: pack g)

/-- The length of an encoder operation's wire sequence can be told from its first byte alone (an inference the spec marks
as its own, `30_encoding.md` section 5): an operation with a settle delay, so one that is not refused and not a no-op. -/
def Obligations.WireLengthIsToldByTheOpcode : Prop :=
  ∀ i : Instr, i.wellFormed = true → (settleOf i).isSome →
    ∃ b rest, wireBytes i = b :: rest ∧ wireLength b = some (wireBytes i).length

/-! ### The glyph packer -/

/-- R131, the normative table: `Pack` gives five bytes, and bit `7 - n` of byte `Pj` is the table's cell, or 0 where the
table has none. -/
def Obligations.PackFollowsTheCellTable : Prop :=
  ∀ g : Glyph, (pack g).length = 5 ∧
    ∀ j n, j < 5 → n < 8 → ((pack g).getD j 0).getLsbD (7 - n) = tableBit g j n

/-- R134: the five unused bits of `P4` are 0 for every bitmap, so `P4` is one of eight values. -/
def Obligations.UnusedPackedBitsAreZero : Prop :=
  ∀ g : Glyph, (∀ b < 5, ((pack g).getD 4 0).getLsbD b = false) ∧
    (pack g).getD 4 0 ∈ [0x00#8, 0x20#8, 0x40#8, 0x60#8, 0x80#8, 0xA0#8, 0xC0#8, 0xE0#8]

/-- R135: cell `k` of `Unpack` is bit `7 - (k mod 8)` of `P[k div 8]`; unpacking a packed bitmap gives it back; distinct
bitmaps pack to distinct bytes; the image of `Pack` is the five-byte lists with the unused bits 0. -/
def Obligations.UnpackInvertsPack : Prop :=
  (∀ ps k, k < 35 → (unpack ps).getLsbD k = (ps.getD (k / 8) 0).getLsbD (7 - k % 8)) ∧
    (∀ g, unpack (pack g) = g) ∧
    (∀ g g', pack g = pack g' → g = g') ∧
    (∀ ps : List Byte, ps.length = 5 →
      ((∃ g, pack g = ps) ↔ ∀ b < 5, (ps.getD 4 0).getLsbD b = false))

/-! ### The cursor -/

/-- R110: `Advance` is `(POS + 1) mod 40`; `write` and `horizontalTab` apply it once, and so does each byte of `print`,
which is issued as one `write` a byte. -/
def Obligations.AdvanceWrapsAtForty : Prop :=
  (∀ p : Pos, p.toNat ≤ 39 →
      (advance p).toNat = (p.toNat + 1) % 40 ∧ (advance p).toNat = if p.toNat = 39 then 0 else p.toNat + 1) ∧
    (∀ s b, Ready s → ∃ t, exec (.write b) s = .next t ∧ t.pos = advance s.pos) ∧
    (∀ s, Ready s → ∃ t, exec .horizontalTab s = .next t ∧ t.pos = advance s.pos) ∧
    (∀ bs, (encode (.print bs)).map decode = bs.map .write)

/-- `Advance` and `Retreat` undo each other and, applied `n` times, add and subtract `n` modulo 40 (laws the spec marks as
derived, `42_cursor_and_facade.md` sections 1 and 3). -/
def Obligations.CursorArithmeticLaws : Prop :=
  ∀ p : Pos, p.toNat ≤ 39 →
    retreat (advance p) = p ∧ advance (retreat p) = p ∧
    ∀ n, (Nat.iterate advance n p).toNat = (p.toNat + n) % 40 ∧
      (Nat.iterate retreat n p).toNat = (p.toNat + 40 - n % 40) % 40

/-- R112: `Home` is 0, and `clear`, `reset` and `home` store it. -/
def Obligations.HomeOperationsForceZero : Prop :=
  homePos = 0 ∧ ∀ s, Ready s → ∀ i ∈ [Instr.clear, Instr.reset, Instr.home], ∃ t, exec i s = .next t ∧ t.pos = 0

/-! ### The operations, from issue to return

`Ready s`: `begin` has returned and no operation runs. `Performs` says that `exec` answers a next state that differs in
`POS` and `SEQ` alone, and that from there the bytes and the settle delay follow and the operation returns, with every
other part of the state unchanged, however long the module holds `BUSY` before each byte. The traces it names follow R71
and R72, in which the shape of the poll, the placing of the holds and of the gap, and with them the order of the cursor
update and the settle delay, are the spec's decisions D8, D9, D12, D13, D15; the numbers of the selectors are its
decision D2. -/

/-- R90. -/
def Obligations.ClearSendsItsByte : Prop :=
  (∀ w, portOpSel w = 0x3 → decode w = .clear) ∧ ∀ s, Ready s → Performs .clear .clear s 0 [0x0D] (some .clear)

/-- R91: `reset` is a command to the module; `EN`, the latches, the mode and the configuration are untouched. -/
def Obligations.ResetSendsItsByte : Prop :=
  (∀ w, portOpSel w = 0x4 → decode w = .reset) ∧ ∀ s, Ready s → Performs .reset .reset s 0 [0x1F] (some .reset)

/-- R92. -/
def Obligations.SetBrightnessSendsTheLevel : Prop :=
  (∀ w, portOpSel w = 0x5 → decode w = .setBrightness (portArgA w)) ∧
    ∀ s level, Ready s →
      Performs (.setBrightness level) (.setBrightness level) s s.pos [0x04, level] (some .setBrightness)

/-- R93: the three modes send their byte; a mode selector above 2 is refused and nothing is sent. -/
def Obligations.SetCursorModeSendsTheModeByte : Prop :=
  (∀ w, portOpSel w = 0x6 → decode w = .setCursorMode (portArgA w)) ∧
    ∀ s, Ready s →
      Performs (.setCursorMode 0) (.setCursorMode 0) s s.pos [0x17, 0x00] (some .setCursorMode) ∧
      Performs (.setCursorMode 1) (.setCursorMode 1) s s.pos [0x17, 0xFF] (some .setCursorMode) ∧
      Performs (.setCursorMode 2) (.setCursorMode 2) s s.pos [0x17, 0x88] (some .setCursorMode) ∧
      ∀ sel : Byte, 2 < sel.toNat → exec (.setCursorMode sel) s = .refused (.reservedMode sel)

/-- R94: `q` is `p`, or 0 where `p` is above 39; it is stored and sent. -/
def Obligations.SetCursorPositionStoresAndSends : Prop :=
  (∀ w, portOpSel w = 0x7 → decode w = .setCursorPosition (portArgA w)) ∧
    ∀ s (p q : Byte), Ready s → q = (if 39 < p.toNat then 0 else p) →
      Performs (.setCursorPosition p) (.setCursorPosition q) s (q.setWidth 6) [0x10, q] (some .setCursorPosition)

/-- R95: slots 0 to 3 send the seven bytes, `POS` unchanged; a slot above 3 changes nothing at all. -/
def Obligations.DefineCustomCharSendsTheGlyph : Prop :=
  (∀ w, portOpSel w = 0xA → decode w = .defineCustomChar (portArgA w) (portArgG w)) ∧
    (∀ s slot g, Ready s → slot.toNat ≤ 3 →
      Performs (.defineCustomChar slot g) (.defineCustomChar slot g) s s.pos (0x03 :: (0x1B + slot) :: pack g)
        (some .defineCustomChar)) ∧
    (∀ s slot g, Ready s → 3 < slot.toNat → exec (.defineCustomChar slot g) s = .next s)

/-- R96: `POS - 1` where `POS > 0`, else 39. -/
def Obligations.BackspaceRetreats : Prop :=
  (∀ w, portOpSel w = 0xB → decode w = .backspace) ∧
    ∀ s, Ready s → ∃ p : Pos, p.toNat = (if 0 < s.pos.toNat then s.pos.toNat - 1 else 39) ∧
      Performs .backspace .backspace s p [0x08] (some .backspace)

/-- R97: `(POS + 1) mod 40`. -/
def Obligations.HorizontalTabAdvances : Prop :=
  (∀ w, portOpSel w = 0xC → decode w = .horizontalTab) ∧
    ∀ s, Ready s → ∃ p : Pos, p.toNat = (s.pos.toNat + 1) % 40 ∧
      Performs .horizontalTab .horizontalTab s p [0x09] (some .horizontalTab)

/-- R98. -/
def Obligations.AllDisplayOnSendsItsByte : Prop :=
  (∀ w, portOpSel w = 0xD → decode w = .allDisplayOn) ∧
    ∀ s, Ready s → Performs .allDisplayOn .allDisplayOn s s.pos [0x0F] (some .allDisplayOn)

/-- `write`, for every byte, control values among them: the byte itself, one advance, no settle delay (the advance first and
the control values sent unchanged are the spec's decisions D15 and D17; no settle delay its decision D13). -/
def Obligations.WriteSendsTheByteAndAdvances : Prop :=
  (∀ w, portOpSel w = 0x2 → decode w = .write (portArgA w)) ∧
    ∀ s b, Ready s → ∃ p : Pos, p.toNat = (s.pos.toNat + 1) % 40 ∧ Performs (.write b) (.write b) s p [b] none

/-- The bytes, the delay and the `POS` of `setCursorPosition(20*r + c)`, an invalid row and an invalid column each replaced
by 0 independently (`42_cursor_and_facade.md` section 4). That `SEQ` latches `setCursor` with its clamped row and column is
the model's, log entry 19. -/
def Obligations.SetCursorResolvesRowAndColumn : Prop :=
  (∀ w, portOpSel w = 0x8 → decode w = .setCursor (portArgA w) (portArgB w)) ∧
    ∀ s (row col r c : Byte), Ready s → r = (if row.toNat ≤ 1 then row else 0) → c = (if col.toNat ≤ 19 then col else 0) →
      ∃ p : Pos, p.toNat = 20 * r.toNat + c.toNat ∧
        Performs (.setCursor row col) (.setCursor r c) s p [0x10, 20 * r + c] (some .setCursorPosition)

/-- The bytes, the delay and the `POS` of `setCursorPosition(0)`: what `home` sends is the spec's decision D16, and that
`SEQ` latches it under the name `home` is the model's, log entry 19. -/
def Obligations.HomeSendsPositionZero : Prop :=
  (∀ w, portOpSel w = 0x9 → decode w = .home) ∧
    ∀ s, Ready s → Performs .home .home s 0 [0x10, 0x00] (some .setCursorPosition)

/-- `print` puts one `write` a byte before what the host has still to issue, changing nothing else; from a ready state
these writes send the bytes in order with no settle delay, and leave `POS` at `(POS + n) mod 40` (the expansion is the
spec's decision D22; how it reaches the port is the model's, log entry 16). -/
def Obligations.PrintWritesEachByteInOrder : Prop :=
  ∀ s (bs : List Byte), s.seq = .idle →
    exec (.print bs) s = .next (s.setRequests (bs.map (fun b => portWord 0x2 b 0 0) ++ s.requests)) ∧
    (Ready s → ∀ ks rest, ks.length = bs.length → s.moduleBusy = moduleAnswers s.transport ks ++ rest →
      ∃ n t p, run n (s.setRequests (bs.map (fun b => portWord 0x2 b 0 0) ++ s.requests)) = .next t ∧
        p.toNat = (s.pos.toNat + bs.length) % 40 ∧
        Returned s t p (operationTrace s.transport ks bs none) rest)

/-- `begin` while `EN = 0`: `OPEN(BAUD)` and `TXD` to the idle level on Serial; `CONFIG` and the lines at `D = 0x00`,
`WR = 1`, `SEL` deasserted, `BUSY` an input on Parallel; then `EN = 1`; nothing else changes. A second `begin` is refused
(the `EN` flag and the Parallel part are the spec's decisions D5 and D6). That the idle level is high is general knowledge
by the spec's own mark (decision D11, G5; log entry 25); that `TXSR` and `BAUDCNT` stay as they were is the model's, log
entry 6. -/
def Obligations.BeginStartsTheTransport : Prop :=
  (∀ w, portOpSel w = 0x0 → decode w = .begin) ∧
    (∀ s c tx, s.seq = .idle → s.en = false → s.transport = .serial c tx →
      exec .begin s = .next { s with
        en := true, transport := .serial c { tx with txd := .drives .high }, trace := s.trace ++ [.opened c.baud] }) ∧
    (∀ s c l, s.seq = .idle → s.en = false → s.transport = .parallel c l →
      exec .begin s = .next { s with
        en := true
        transport := .parallel c
          { d := .drives 0x00, wr := .drives .high, sel := .drives .deasserted, busyInput := true }
        trace := s.trace ++ [.config] }) ∧
    (∀ s, s.seq = .idle → s.en = true → exec .begin s = .refused .begunTwice)

/-- `isBusy`: one sample of the line on Parallel, always 0 and no event on Serial; no byte, no latch, `POS` unchanged; the
operation returns at once (the details are the spec's decision D24). On Parallel the sample is what the module is listed to
answer, and a free draw where nothing is listed. -/
def Obligations.IsBusyReportsOneSample : Prop :=
  (∀ w, portOpSel w = 0x1 → decode w = .isBusy) ∧
    (∀ s c l x rest, Ready s → s.transport = .parallel c l → s.moduleBusy = x :: rest →
      exec .isBusy s = .next { s with
        busyQ := decide (x = c.busyActive), busyQValid := true, moduleBusy := rest
        trace := s.trace ++ [.busy (if x = c.busyActive then .asserted else .deasserted)] }) ∧
    (∀ s c l, Ready s → s.transport = .parallel c l → s.moduleBusy = [] →
      exec .isBusy s = .next { s with
        busyQ := decide (Config.busyLevel s.draws = c.busyActive), busyQValid := true, draws := s.draws + 1
        trace := s.trace ++ [.busy (if Config.busyLevel s.draws = c.busyActive then .asserted else .deasserted)] }) ∧
    (∀ s c tx, Ready s → s.transport = .serial c tx →
      exec .isBusy s = .next { s with busyQ := false, busyQValid := true })

/-- `TxByte(v)` on its own, each variant on its transport: the transfer of R71 or R72 and nothing else, `POS` unchanged; on
the other transport it is refused; no port word decodes to it (the placing of the gap, the shape of the poll and the holds
are the spec's decisions D8, D9, D12; that it runs as a one-byte sequence is the model's, log entry 17). -/
def Obligations.TxByteTransfersOneByte : Prop :=
  (∀ s v c tx, Ready s → s.transport = .serial c tx →
      Performs (.txByteSerial v) (.txByteSerial v) s s.pos [v] none ∧
      exec (.txByteParallel v) s = .refused .wrongTransport) ∧
    (∀ s v c l, Ready s → s.transport = .parallel c l →
      Performs (.txByteParallel v) (.txByteParallel v) s s.pos [v] none ∧
      exec (.txByteSerial v) s = .refused .wrongTransport) ∧
    (∀ w v, decode w ≠ .txByteSerial v ∧ decode w ≠ .txByteParallel v)

/-! ### Refusals -/

/-- The selectors 0xE and 0xF are refused in every state (the spec's decision D19). -/
def Obligations.ReservedSelectorsAreRefused : Prop :=
  (∀ w, portOpSel w = 0xE → decode w = .reservedE) ∧ (∀ w, portOpSel w = 0xF → decode w = .reservedF) ∧
    ∀ s, exec .reservedE s = .refused (.reservedSelector 0xE) ∧ exec .reservedF s = .refused (.reservedSelector 0xF)

/-- While `EN = 0` every operation but `begin` is refused, whatever its operands (the spec's decisions D5 and D19). -/
def Obligations.NothingButBeginRunsBeforeBegin : Prop :=
  ∀ s w, s.seq = .idle → s.en = false → 0x1 ≤ (portOpSel w).toNat → (portOpSel w).toNat ≤ 0xD →
    exec (decode w) s = .refused .notBegun

/-- The host's read of `busy_q` is refused on a new instance and stays refused over every step that takes no `isBusy` (the
spec's decision D23 and U7; the flag that remembers it is the model's, log entry 5); after an `isBusy` it answers the sample:
the module's listed answer, else the free draw, on Parallel (log entry 3), false on Serial (decision D24). -/
def Obligations.BusyQIsUnreadableBeforeIsBusy : Prop :=
  (∀ c, (State.construct c).readBusyQ = .refused .busyQUnread) ∧
    (∀ s t, s.readBusyQ = .refused .busyQUnread → step s = .next t →
      (∀ w rest, s.seq = .idle → s.requests = w :: rest → decode w ≠ .isBusy) →
      t.readBusyQ = .refused .busyQUnread) ∧
    (∀ s t, exec .isBusy s = .next t → t.readBusyQ = .next t.busyQ) ∧
    (∀ s c l x rest, Ready s → s.transport = .parallel c l → s.moduleBusy = x :: rest →
      ∃ t, exec .isBusy s = .next t ∧ t.readBusyQ = .next (decide (x = c.busyActive))) ∧
    (∀ s c l, Ready s → s.transport = .parallel c l → s.moduleBusy = [] →
      ∃ t, exec .isBusy s = .next t ∧ t.readBusyQ = .next (decide (Config.busyLevel s.draws = c.busyActive))) ∧
    (∀ s c tx, Ready s → s.transport = .serial c tx → ∃ t, exec .isBusy s = .next t ∧ t.readBusyQ = .next false)

/-! ### The step -/

/-- A step while `SEQ = IDLE` runs the operation on the port, taken off it, and waits where there is none; a step while an
operation runs does its next phase. `withFetchWord` puts an instruction there (the port is the spec's decision D2; the list
of words the host has still to issue is the model's, log entries 2 and 24). -/
def Obligations.StepRunsTheOperationOnThePort : Prop :=
  (∀ s w rest, s.seq = .idle → s.requests = w :: rest → step s = exec (decode w) { s with requests := rest }) ∧
    (∀ s, s.seq = .idle → s.requests = [] → step s = .next s) ∧
    (∀ s op bi ph, s.seq = .run op bi ph → step s = sequence op bi ph s) ∧
    (∀ (s : State) nbits w i, decodeTableWord nbits w = some i →
      step (s.withFetchWord nbits w) = exec i { s with seq := .idle })

/-- While an operation runs, a step changes neither `POS` nor `EN` nor `busy_q` nor the configuration, and takes nothing off
the port: no byte of it moves the cursor, and no other operation can begin (`42_cursor_and_facade.md` section 2,
`10_state.md` section 7; the port is the spec's decision D21). -/
def Obligations.RunningOperationKeepsTheRegisters : Prop :=
  ∀ s t op bi ph, s.seq = .run op bi ph → step s = .next t →
    t.pos = s.pos ∧ t.en = s.en ∧ t.busyQ = s.busyQ ∧ t.busyQValid = s.busyQValid ∧
      t.requests = s.requests ∧ t.transport.configuration = s.transport.configuration

/-- The busy-wait: a poll that reads asserted leaves everything but the trace and the module's answers as it was, so that
after any number of them `SEQ` is still in `WAIT`; only a poll that reads deasserted leaves it (no timeout is the spec's
decision D20). -/
def Obligations.BusyWaitEndsOnlyWhenDeasserted : Prop :=
  ∀ s c l op bi, Invariant s → s.transport = .parallel c l → s.seq = .run op bi .wait →
    (∀ k rest, s.moduleBusy = List.replicate k c.busyActive ++ rest →
      run k s = .next { s with
        moduleBusy := rest
        trace := s.trace ++ (List.replicate k [Event.busy .asserted, Event.delay .poll]).flatten }) ∧
    (∀ rest, s.moduleBusy = opposite c.busyActive :: rest →
      step s = .next { s with
        seq := .run op bi .drive, moduleBusy := rest, trace := s.trace ++ [.busy .deasserted] }) ∧
    (∀ t, step s = .next t → t.seq = s.seq ∨ t.trace = s.trace ++ [.busy .deasserted])

/-- R32: when a byte is driven, data line `i` carries bit `i` of it. -/
def Obligations.DataLinesCarryTheByte : Prop :=
  ∀ s c l op bi v, s.transport = .parallel c l → s.seq = .run op bi .drive → byteAt op bi = some v →
    ∃ t l', step s = .next t ∧ t.transport = .parallel c l' ∧
      ∀ i < 8, l'.dataLine i = .drives (if v.getLsbD i then .high else .low)

/-- The phases `DRIVE` to `SEL_OFF`, five steps, append the events of the strobe sequence, and the calls these make are
eight line writes, data line `i` at the level of bit `i`, then select by its polarity, the strobe low and high with its
holds, and select released (`60_exceptions.md` section 8; one step a phase and the order of the eight are the model's, log
entries 10 and 22). -/
def Obligations.StrobeCallsThePlatform : Prop :=
  ∀ s c l op bi v, s.transport = .parallel c l → s.seq = .run op bi .drive → byteAt op bi = some v →
    (∃ t, run 5 s = .next t ∧ t.trace = s.trace ++ strobe v) ∧
    collaboratorCalls (.parallel c) (strobe v) =
      [.writeLine c.pinD[0] (if v.getLsbD 0 then .high else .low),
       .writeLine c.pinD[1] (if v.getLsbD 1 then .high else .low),
       .writeLine c.pinD[2] (if v.getLsbD 2 then .high else .low),
       .writeLine c.pinD[3] (if v.getLsbD 3 then .high else .low),
       .writeLine c.pinD[4] (if v.getLsbD 4 then .high else .low),
       .writeLine c.pinD[5] (if v.getLsbD 5 then .high else .low),
       .writeLine c.pinD[6] (if v.getLsbD 6 then .high else .low),
       .writeLine c.pinD[7] (if v.getLsbD 7 then .high else .low),
       .writeLine c.pinSel c.selActive, .writeLine c.pinWr .low, .sleep .wrLow, .writeLine c.pinWr .high,
       .sleep .wrHigh, .writeLine c.pinSel (opposite c.selActive)]

/-! ### The serial line -/

/-- From `SEND`, `TXD` carries bit time `j` of the frame for `DIV` reference periods: the start bits, the data bits, the
parity bit if there is one, the stop bits; with the default frame a start bit, `v[0]` to `v[7]` and a stop bit. The default
frame and the divider are general knowledge by the spec's own mark (decision D11; log entry 25); the other formats are the
model's, log entry 8, and so is one step a reference period, log entry 7. -/
def Obligations.SerialLineCarriesTheFrame : Prop :=
  ∀ s c tx op bi v, s.transport = .serial c tx → s.seq = .run op bi .send →
    byteAt op bi = some v → ∀ j m, j < frameLength c.frame → m < baudDiv c →
      ∃ t tx', run (1 + j * baudDiv c + m) s = .next t ∧ t.transport = .serial c tx' ∧
        tx'.txd = .drives (frameLevel c.frame v j) ∧
        (c.frame = .standard →
          tx'.txd = .drives (if j = 0 then .low else if j ≤ 8 then (if v.getLsbD (j - 1) then .high else .low) else .high))

/-- A serial byte takes one step and the bit times of its frame, ten with the default, and never waits for the module: the
trace gains `TX(v)` and the gap, and the next byte begins, or the settle phase. One step a reference period is log entry 7,
the frames but the default log entry 8, `bi` in `SETTLE` log entry 11, the gap event whatever the parameter log entry 12:
all the model's. -/
def Obligations.SerialByteTakesItsBitTimes : Prop :=
  frameLength .standard = 10 ∧
    ∀ s c tx op bi v, s.transport = .serial c tx → s.seq = .run op bi .send → byteAt op bi = some v →
      ∃ t, run (1 + frameLength c.frame * baudDiv c) s = .next t ∧ t.trace = s.trace ++ [.tx v, .delay .gap] ∧
        t.seq = (if bi + 1 < (wireBytes op).length then .run op (bi + 1) .send else .run op bi .settle)

/-- Every operation on a Serial instance returns, within a number of steps known at its issue (the spec's decision D11 for
the bit time; one step a reference period is the model's, log entry 7, and so are the frames but the default, log
entry 8). -/
def Obligations.SerialOperationsAlwaysReturn : Prop :=
  ∀ s c tx op, Invariant s → s.transport = .serial c tx → s.seq = .run op 0 .send →
    ∃ t, run ((wireBytes op).length * (1 + frameLength c.frame * baudDiv c) + 1) s = .next t ∧ t.seq = .idle

/-! ### The invariant and the whole machine -/

/-- A new instance, whatever its configuration: `POS` is 0; `EN`, `SEQ`, the lines and the trace as the table of
`10_state.md` section 13 has them (the spec's decision D23 but for `POS`). -/
def Obligations.NewInstanceIsAsTheResetTableSays : Prop :=
  State.reset = State.construct Config.construction ∧
    ∀ c, (State.construct c).pos = 0 ∧ (State.construct c).en = false ∧ (State.construct c).seq = .idle ∧
      (State.construct c).opReady = true ∧ (State.construct c).posQ = 0 ∧ (State.construct c).trace = [] ∧
      (State.construct c).transport.configuration = c ∧
      (∀ k l, (State.construct c).transport = .parallel k l → l.d = .undriven ∧ l.wr = .undriven ∧ l.sel = .undriven) ∧
      (∀ k tx, (State.construct c).transport = .serial k tx → tx.txd = .undriven)

/-- The invariant holds of every new instance. -/
def Obligations.NewInstanceSatisfiesTheInvariant : Prop := ∀ c, Invariant (State.construct c)

/-- Every step keeps the invariant: `POS` in range, `SEQ` a state of its table, the lines as the phase says. `POS` and the
lines of Parallel are inferences the spec marks as derived (`10_state.md` section 2, `40_transport.md` section 1). The
model's are: `bi` in `SETTLE` (log entry 11), the serial transmitter before the first byte (log entry 6), inside a frame
(log entries 7, 8; `40_transport.md` section 4) and at the idle level (log entry 25). -/
def Obligations.StepKeepsTheInvariant : Prop := ∀ s t, Invariant s → step s = .next t → Invariant t

/-- `POS` stays in 0 to 39 from any state in which it is, whatever else the state holds. -/
def Obligations.StepKeepsThePositionInRange : Prop := ∀ s t, PosOk s → step s = .next t → PosOk t

/-- No step from a state of the invariant is a fault: the hardware raises no exception (`60_exceptions.md` section 1). -/
def Obligations.NoStepFaults : Prop := ∀ s r, Invariant s → step s ≠ .fault r

/-- The strobe: whenever `SEQ = IDLE` and `EN = 1` the lines are at rest with `D` the last byte sent; `WR` is low only while
`SEL` is asserted; while `SEL` is asserted no step changes `D` (inferences the spec marks as derived, `40_transport.md`
section 1). -/
def Obligations.StrobeKeepsItsLines : Prop :=
  ∀ s c l, Invariant s → s.transport = .parallel c l →
    (s.seq = .idle → s.en = true →
      l.wr = .drives .high ∧ l.sel = .drives .deasserted ∧ l.d = .drives (lastByte s.trace)) ∧
    (l.wr = .drives .low → l.sel = .drives .asserted) ∧
    (∀ t c' l', l.sel = .drives .asserted → step s = .next t → t.transport = .parallel c' l' → l'.d = l.d)

/-- No step changes the mode or the configuration, and none clears `EN` (R17's "immutable for the object's lifetime"; that
`EN` is never cleared is the spec's decision D5). -/
def Obligations.InstanceConstantsAreKept : Prop :=
  ∀ s t, step s = .next t →
    t.transport.configuration = s.transport.configuration ∧ t.transport.mode = s.transport.mode ∧
      (s.en = true → t.en = true)

/-- `busy_q` is changed by `isBusy` and by nothing else. -/
def Obligations.OnlyIsBusyChangesBusyQ : Prop :=
  ∀ s t, step s = .next t → (t.busyQ ≠ s.busyQ ∨ t.busyQValid ≠ s.busyQValid) →
    s.seq = .idle ∧ ∃ w rest, s.requests = w :: rest ∧ decode w = .isBusy

/-- The trace only grows: what has been done is never taken back. -/
def Obligations.TraceOnlyGrows : Prop := ∀ s t, step s = .next t → ∃ es, t.trace = s.trace ++ es

/-- Bytes leave in issue order, without reordering, merging, dropping or duplication: the bytes sent, then those the running
operation has still to send, then those of the operations still to be issued, are the same list all along a run; so when
the host's operations have all returned, the byte stream is the concatenation of their sequences. -/
def Obligations.BytesLeaveInIssueOrder : Prop :=
  ∀ n s t, Invariant s → run n s = .next t →
    owedBytes t = owedBytes s ∧
    (s.seq = .idle → Finished t →
      byteStream t.trace = byteStream s.trace ++ s.requests.flatMap (fun w => wireBytes (decode w)))

/-- Operations take effect on `POS` in issue order, each exactly as the table of `30_encoding.md` section 1 says. -/
def Obligations.PositionsFollowInIssueOrder : Prop :=
  ∀ n s t, run n s = .next t →
    owedPos t = owedPos s ∧
    (s.seq = .idle → Finished t → t.pos = s.requests.foldl (fun p w => posEffect (decode w) p) s.pos)

/-- The same operations from the same `POS` on two instances, of any transports and however their modules answer, append the
same byte stream and leave the same `POS`, once all have returned (an inference the spec marks as derived, `00_scope.md`
section 6). -/
def Obligations.BothTransportsSendTheSameBytes : Prop :=
  ∀ n₁ n₂ s₁ s₂ t₁ t₂, Invariant s₁ → Invariant s₂ → s₁.seq = .idle → s₂.seq = .idle →
    s₁.requests = s₂.requests → s₁.pos = s₂.pos → run n₁ s₁ = .next t₁ → run n₂ s₂ = .next t₂ →
    Finished t₁ → Finished t₂ →
    t₁.pos = t₂.pos ∧
      ∃ bs, byteStream t₁.trace = byteStream s₁.trace ++ bs ∧ byteStream t₂.trace = byteStream s₂.trace ++ bs

/-! ### The baud divider -/

/-- `DIV` of a well-formed Serial configuration is at least 1 and within a half of `F_REF / BAUD`, so it is the nearest
integer, a tie going either way (general knowledge by the spec's own mark, decision D11, G6; the tie is free, log entry 9;
`F_REF` a rational number, log entry 27). -/
def Obligations.BaudDivisorIsTheNearestInteger : Prop :=
  ∀ c : SerialConfig, (TransportConfig.serial c).wellFormed = true →
    1 ≤ baudDiv c ∧ |(baudDiv c : ℚ) - c.fRef / (c.baud : ℕ)| ≤ 1 / 2
end

