-- ==== Sys2Proof/Laws/Decode.lean ====
section
/-! SUPPORT. The fields of a port word that was put together from its four signals. -/
namespace Sys2Proof

variable (op : OpSel) (a b : Byte) (g : Glyph)

/-- Which signal each bit of a port word belongs to. -/
theorem portWord_getLsbD (i : Nat) :
    (portWord op a b g).getLsbD i =
      if i < 4 then op.getLsbD i
      else if i < 12 then a.getLsbD (i - 4)
      else if i < 20 then b.getLsbD (i - 12)
      else g.getLsbD (i - 20) := by
  change BitVec.getLsbD (w := 35 + 8 + 8 + 4) (g ++ b ++ a ++ op) i = _
  rw [BitVec.getLsbD_append, BitVec.getLsbD_append, BitVec.getLsbD_append]
  repeat' split
  all_goals first
    | rfl
    | omega

@[simp] theorem portOpSel_portWord : portOpSel (portWord op a b g) = op := by
  refine BitVec.eq_of_getLsbD_eq fun i hi => ?_
  simp [portOpSel, portWord_getLsbD, hi]

@[simp] theorem portArgA_portWord : portArgA (portWord op a b g) = a := by
  refine BitVec.eq_of_getLsbD_eq fun i hi => ?_
  simp [portArgA, portWord_getLsbD, hi, show 4 + i < 12 by omega]

@[simp] theorem portArgB_portWord : portArgB (portWord op a b g) = b := by
  refine BitVec.eq_of_getLsbD_eq fun i hi => ?_
  simp [portArgB, portWord_getLsbD, hi, show 12 + i < 20 by omega, show ¬12 + i < 12 by omega, show ¬12 + i < 4 by omega]

@[simp] theorem portArgG_portWord : portArgG (portWord op a b g) = g := by
  refine BitVec.eq_of_getLsbD_eq fun i hi => ?_
  simp [portArgG, portWord_getLsbD, hi, show ¬20 + i < 20 by omega, show ¬20 + i < 12 by omega, show ¬20 + i < 4 by omega]

end Sys2Proof
end

