-- ==== Sys2Proof/Laws/State.lean ====
section
/-! SUPPORT. One lemma for each field of each update of the state, true by unfolding. -/
namespace Sys2Proof.Machine

variable (s : State)

@[simp] theorem State.emit_pos (e : Event) : (s.emit e).pos = s.pos := rfl
@[simp] theorem State.emit_en (e : Event) : (s.emit e).en = s.en := rfl
@[simp] theorem State.emit_transport (e : Event) : (s.emit e).transport = s.transport := rfl
@[simp] theorem State.emit_seq (e : Event) : (s.emit e).seq = s.seq := rfl
@[simp] theorem State.emit_busyQ (e : Event) : (s.emit e).busyQ = s.busyQ := rfl
@[simp] theorem State.emit_busyQValid (e : Event) : (s.emit e).busyQValid = s.busyQValid := rfl
@[simp] theorem State.emit_trace (e : Event) : (s.emit e).trace = s.trace ++ [e] := rfl
@[simp] theorem State.emit_requests (e : Event) : (s.emit e).requests = s.requests := rfl
@[simp] theorem State.emit_moduleBusy (e : Event) : (s.emit e).moduleBusy = s.moduleBusy := rfl
@[simp] theorem State.emit_draws (e : Event) : (s.emit e).draws = s.draws := rfl

@[simp] theorem State.delay_pos (d : DelayName) : (s.delay d).pos = s.pos := rfl
@[simp] theorem State.delay_en (d : DelayName) : (s.delay d).en = s.en := rfl
@[simp] theorem State.delay_transport (d : DelayName) : (s.delay d).transport = s.transport := rfl
@[simp] theorem State.delay_seq (d : DelayName) : (s.delay d).seq = s.seq := rfl
@[simp] theorem State.delay_busyQ (d : DelayName) : (s.delay d).busyQ = s.busyQ := rfl
@[simp] theorem State.delay_busyQValid (d : DelayName) : (s.delay d).busyQValid = s.busyQValid := rfl
@[simp] theorem State.delay_trace (d : DelayName) : (s.delay d).trace = s.trace ++ [.delay d] := rfl
@[simp] theorem State.delay_requests (d : DelayName) : (s.delay d).requests = s.requests := rfl
@[simp] theorem State.delay_moduleBusy (d : DelayName) : (s.delay d).moduleBusy = s.moduleBusy := rfl
@[simp] theorem State.delay_draws (d : DelayName) : (s.delay d).draws = s.draws := rfl

@[simp] theorem State.setPos_pos (p : Pos) : (s.setPos p).pos = p := rfl
@[simp] theorem State.setPos_en (p : Pos) : (s.setPos p).en = s.en := rfl
@[simp] theorem State.setPos_transport (p : Pos) : (s.setPos p).transport = s.transport := rfl
@[simp] theorem State.setPos_seq (p : Pos) : (s.setPos p).seq = s.seq := rfl
@[simp] theorem State.setPos_busyQ (p : Pos) : (s.setPos p).busyQ = s.busyQ := rfl
@[simp] theorem State.setPos_busyQValid (p : Pos) : (s.setPos p).busyQValid = s.busyQValid := rfl
@[simp] theorem State.setPos_trace (p : Pos) : (s.setPos p).trace = s.trace := rfl
@[simp] theorem State.setPos_requests (p : Pos) : (s.setPos p).requests = s.requests := rfl
@[simp] theorem State.setPos_moduleBusy (p : Pos) : (s.setPos p).moduleBusy = s.moduleBusy := rfl
@[simp] theorem State.setPos_draws (p : Pos) : (s.setPos p).draws = s.draws := rfl

@[simp] theorem State.setSeq_pos (q : SeqState) : (s.setSeq q).pos = s.pos := rfl
@[simp] theorem State.setSeq_en (q : SeqState) : (s.setSeq q).en = s.en := rfl
@[simp] theorem State.setSeq_transport (q : SeqState) : (s.setSeq q).transport = s.transport := rfl
@[simp] theorem State.setSeq_seq (q : SeqState) : (s.setSeq q).seq = q := rfl
@[simp] theorem State.setSeq_busyQ (q : SeqState) : (s.setSeq q).busyQ = s.busyQ := rfl
@[simp] theorem State.setSeq_busyQValid (q : SeqState) : (s.setSeq q).busyQValid = s.busyQValid := rfl
@[simp] theorem State.setSeq_trace (q : SeqState) : (s.setSeq q).trace = s.trace := rfl
@[simp] theorem State.setSeq_requests (q : SeqState) : (s.setSeq q).requests = s.requests := rfl
@[simp] theorem State.setSeq_moduleBusy (q : SeqState) : (s.setSeq q).moduleBusy = s.moduleBusy := rfl
@[simp] theorem State.setSeq_draws (q : SeqState) : (s.setSeq q).draws = s.draws := rfl

@[simp] theorem State.setTransport_pos (x : Transport) : (s.setTransport x).pos = s.pos := rfl
@[simp] theorem State.setTransport_en (x : Transport) : (s.setTransport x).en = s.en := rfl
@[simp] theorem State.setTransport_transport (x : Transport) : (s.setTransport x).transport = x := rfl
@[simp] theorem State.setTransport_seq (x : Transport) : (s.setTransport x).seq = s.seq := rfl
@[simp] theorem State.setTransport_busyQ (x : Transport) : (s.setTransport x).busyQ = s.busyQ := rfl
@[simp] theorem State.setTransport_busyQValid (x : Transport) : (s.setTransport x).busyQValid = s.busyQValid := rfl
@[simp] theorem State.setTransport_trace (x : Transport) : (s.setTransport x).trace = s.trace := rfl
@[simp] theorem State.setTransport_requests (x : Transport) : (s.setTransport x).requests = s.requests := rfl
@[simp] theorem State.setTransport_moduleBusy (x : Transport) : (s.setTransport x).moduleBusy = s.moduleBusy := rfl
@[simp] theorem State.setTransport_draws (x : Transport) : (s.setTransport x).draws = s.draws := rfl

@[simp] theorem State.answerBusy_pos (b : Bool) : (s.answerBusy b).pos = s.pos := rfl
@[simp] theorem State.answerBusy_en (b : Bool) : (s.answerBusy b).en = s.en := rfl
@[simp] theorem State.answerBusy_transport (b : Bool) : (s.answerBusy b).transport = s.transport := rfl
@[simp] theorem State.answerBusy_seq (b : Bool) : (s.answerBusy b).seq = s.seq := rfl
@[simp] theorem State.answerBusy_busyQ (b : Bool) : (s.answerBusy b).busyQ = b := rfl
@[simp] theorem State.answerBusy_busyQValid (b : Bool) : (s.answerBusy b).busyQValid = true := rfl
@[simp] theorem State.answerBusy_trace (b : Bool) : (s.answerBusy b).trace = s.trace := rfl
@[simp] theorem State.answerBusy_requests (b : Bool) : (s.answerBusy b).requests = s.requests := rfl
@[simp] theorem State.answerBusy_moduleBusy (b : Bool) : (s.answerBusy b).moduleBusy = s.moduleBusy := rfl
@[simp] theorem State.answerBusy_draws (b : Bool) : (s.answerBusy b).draws = s.draws := rfl

@[simp] theorem State.setRequests_pos (ws : List PortWord) : (s.setRequests ws).pos = s.pos := rfl
@[simp] theorem State.setRequests_en (ws : List PortWord) : (s.setRequests ws).en = s.en := rfl
@[simp] theorem State.setRequests_transport (ws : List PortWord) : (s.setRequests ws).transport = s.transport := rfl
@[simp] theorem State.setRequests_seq (ws : List PortWord) : (s.setRequests ws).seq = s.seq := rfl
@[simp] theorem State.setRequests_busyQ (ws : List PortWord) : (s.setRequests ws).busyQ = s.busyQ := rfl
@[simp] theorem State.setRequests_busyQValid (ws : List PortWord) : (s.setRequests ws).busyQValid = s.busyQValid := rfl
@[simp] theorem State.setRequests_trace (ws : List PortWord) : (s.setRequests ws).trace = s.trace := rfl
@[simp] theorem State.setRequests_requests (ws : List PortWord) : (s.setRequests ws).requests = ws := rfl
@[simp] theorem State.setRequests_moduleBusy (ws : List PortWord) : (s.setRequests ws).moduleBusy = s.moduleBusy := rfl
@[simp] theorem State.setRequests_draws (ws : List PortWord) : (s.setRequests ws).draws = s.draws := rfl

@[simp] theorem State.takeRequest_pos (ws : List PortWord) : (s.takeRequest ws).pos = s.pos := rfl
@[simp] theorem State.takeRequest_en (ws : List PortWord) : (s.takeRequest ws).en = s.en := rfl
@[simp] theorem State.takeRequest_transport (ws : List PortWord) : (s.takeRequest ws).transport = s.transport := rfl
@[simp] theorem State.takeRequest_seq (ws : List PortWord) : (s.takeRequest ws).seq = s.seq := rfl
@[simp] theorem State.takeRequest_busyQ (ws : List PortWord) : (s.takeRequest ws).busyQ = s.busyQ := rfl
@[simp] theorem State.takeRequest_busyQValid (ws : List PortWord) : (s.takeRequest ws).busyQValid = s.busyQValid := rfl
@[simp] theorem State.takeRequest_trace (ws : List PortWord) : (s.takeRequest ws).trace = s.trace := rfl
@[simp] theorem State.takeRequest_requests (ws : List PortWord) : (s.takeRequest ws).requests = ws := rfl
@[simp] theorem State.takeRequest_moduleBusy (ws : List PortWord) : (s.takeRequest ws).moduleBusy = s.moduleBusy := rfl
@[simp] theorem State.takeRequest_draws (ws : List PortWord) : (s.takeRequest ws).draws = s.draws := rfl

@[simp] theorem State.setEn_pos : (s.setEn).pos = s.pos := rfl
@[simp] theorem State.setEn_en : (s.setEn).en = true := rfl
@[simp] theorem State.setEn_transport : (s.setEn).transport = s.transport := rfl
@[simp] theorem State.setEn_seq : (s.setEn).seq = s.seq := rfl
@[simp] theorem State.setEn_busyQ : (s.setEn).busyQ = s.busyQ := rfl
@[simp] theorem State.setEn_busyQValid : (s.setEn).busyQValid = s.busyQValid := rfl
@[simp] theorem State.setEn_trace : (s.setEn).trace = s.trace := rfl
@[simp] theorem State.setEn_requests : (s.setEn).requests = s.requests := rfl
@[simp] theorem State.setEn_moduleBusy : (s.setEn).moduleBusy = s.moduleBusy := rfl
@[simp] theorem State.setEn_draws : (s.setEn).draws = s.draws := rfl

end Sys2Proof.Machine
end

