-- ==== Sys2Proof/Laws/Ops.lean ====
section
/-! SUPPORT. What each shared operation can do, once: sampling the busy line, driving a latch, issuing an operation. -/
namespace Sys2Proof.Machine

/-! ### The busy line -/

section Sample

variable (s : State)

@[simp] theorem State.dropSample_pos : s.dropSample.pos = s.pos := by
  unfold State.dropSample; split <;> rfl
@[simp] theorem State.dropSample_en : s.dropSample.en = s.en := by
  unfold State.dropSample; split <;> rfl
@[simp] theorem State.dropSample_transport : s.dropSample.transport = s.transport := by
  unfold State.dropSample; split <;> rfl
@[simp] theorem State.dropSample_seq : s.dropSample.seq = s.seq := by
  unfold State.dropSample; split <;> rfl
@[simp] theorem State.dropSample_busyQ : s.dropSample.busyQ = s.busyQ := by
  unfold State.dropSample; split <;> rfl
@[simp] theorem State.dropSample_busyQValid : s.dropSample.busyQValid = s.busyQValid := by
  unfold State.dropSample; split <;> rfl
@[simp] theorem State.dropSample_trace : s.dropSample.trace = s.trace := by
  unfold State.dropSample; split <;> rfl
@[simp] theorem State.dropSample_requests : s.dropSample.requests = s.requests := by
  unfold State.dropSample; split <;> rfl

variable (c : ParallelConfig)

@[simp] theorem State.busyRead_pos : (s.busyRead c).pos = s.pos := by simp [State.busyRead]
@[simp] theorem State.busyRead_en : (s.busyRead c).en = s.en := by simp [State.busyRead]
@[simp] theorem State.busyRead_transport : (s.busyRead c).transport = s.transport := by simp [State.busyRead]
@[simp] theorem State.busyRead_seq : (s.busyRead c).seq = s.seq := by simp [State.busyRead]
@[simp] theorem State.busyRead_busyQ : (s.busyRead c).busyQ = s.busyQ := by simp [State.busyRead]
@[simp] theorem State.busyRead_busyQValid : (s.busyRead c).busyQValid = s.busyQValid := by simp [State.busyRead]
@[simp] theorem State.busyRead_trace : (s.busyRead c).trace = s.trace ++ [.busy (s.busyAnswer c)] := by
  simp [State.busyRead]
@[simp] theorem State.busyRead_requests : (s.busyRead c).requests = s.requests := by simp [State.busyRead]

end Sample

/-- A sample the module is listed to answer: that level, and no free draw is taken. -/
theorem State.sample_listed {s : State} {l : Level} {ls : List Level} (h : s.moduleBusy = l :: ls) :
    s.busyLevel = l ∧ s.dropSample = { s with moduleBusy := ls } := by
  simp [State.busyLevel, State.dropSample, h]

@[simp] theorem logicOf_self (l : Level) : logicOf l l = .asserted := by simp [logicOf]

@[simp] theorem logicOf_opposite (l : Level) : logicOf l (opposite l) = .deasserted := by
  cases l <;> rfl

/-- Reading a line with the polarity it was driven with gives the logical state back. -/
@[simp] theorem logicOf_levelOf (active : Level) (x : Logic) : logicOf active (levelOf active x) = x := by
  cases active <;> cases x <;> rfl

/-! ### The latches -/

section Latch

variable (s : State) (c : ParallelConfig) (l : Latches)

@[simp] theorem State.driveData_transport (v : Byte) :
    (s.driveData c l v).transport = .parallel c { l with d := .drives v } := rfl
@[simp] theorem State.driveData_trace (v : Byte) : (s.driveData c l v).trace = s.trace ++ [.data v] := rfl
@[simp] theorem State.driveSel_transport (a : Logic) :
    (s.driveSel c l a).transport = .parallel c { l with sel := .drives a } := rfl
@[simp] theorem State.driveSel_trace (a : Logic) : (s.driveSel c l a).trace = s.trace ++ [.sel a] := rfl
@[simp] theorem State.driveWr_transport (x : Level) :
    (s.driveWr c l x).transport = .parallel c { l with wr := .drives x } := rfl
@[simp] theorem State.driveWr_trace (x : Level) : (s.driveWr c l x).trace = s.trace ++ [.wr x] := rfl

end Latch

/-! ### Issuing -/

/-- An operation is admitted exactly when the sequencer is idle and `begin` has been done. -/
theorem admission_none_iff {s : State} : admission s = none ↔ s.seq = .idle ∧ s.en = true := by
  unfold admission
  split
  · simp_all
  · split <;> simp_all

theorem admission_ready {s : State} (hseq : s.seq = .idle) (hen : s.en = true) : admission s = none :=
  admission_none_iff.mpr ⟨hseq, hen⟩

theorem admission_notBegun {s : State} (hseq : s.seq = .idle) (hen : s.en = false) :
    admission s = some .notBegun := by
  simp [admission, hseq, hen]

/-- `issue` answers next in one case only, and then changes `POS` and `SEQ` alone. -/
theorem issue_next_iff {op : Instr} {p : Pos} {s t : State} :
    issue op p s = .next t ↔
      s.seq = .idle ∧ s.en = true ∧ t = (s.setPos p).setSeq (.run op 0 s.transport.firstPhase) := by
  unfold issue
  cases h : admission s with
  | some r =>
    simp only [reduceCtorEq, false_iff, not_and]
    intro hs he
    simp [admission_ready hs he] at h
  | none =>
    obtain ⟨hs, he⟩ := admission_none_iff.mp h
    simp [hs, he, eq_comm]

theorem issue_ready {op : Instr} {p : Pos} {s : State} (hseq : s.seq = .idle) (hen : s.en = true) :
    issue op p s = .next ((s.setPos p).setSeq (.run op 0 s.transport.firstPhase)) :=
  issue_next_iff.mpr ⟨hseq, hen, rfl⟩

theorem issue_not_fault {op : Instr} {p : Pos} {s : State} {r : Fault} : issue op p s ≠ .fault r := by
  unfold issue; split <;> simp

/-! ### The trace -/

@[simp] theorem byteStream_append (xs ys : List Event) : byteStream (xs ++ ys) = byteStream xs ++ byteStream ys := by
  simp [byteStream]

@[simp] theorem byteStream_nil : byteStream [] = [] := rfl

@[simp] theorem byteStream_cons (e : Event) (es : List Event) :
    byteStream (e :: es) = e.txByte.toList ++ byteStream es := by
  cases e <;> rfl

@[simp] theorem lastByte_append_tx (tr : List Event) (v : Byte) : lastByte (tr ++ [.tx v]) = v := by
  simp [lastByte, Event.txByte]

/-- An event that is no `TX` leaves the last byte sent as it was. -/
theorem lastByte_append_of_not_tx {tr es : List Event} (h : byteStream es = []) :
    lastByte (tr ++ es) = lastByte tr := by
  simp [lastByte, h]

end Sys2Proof.Machine
end

