-- ==== Sys2Proof/Laws/Frame.lean ====
section
/-! SUPPORT. The serial frame and the transmitter: lengths, and what a loaded register and a shift hold. -/
namespace Sys2Proof.Machine

@[simp] theorem dataBits_length (o : BitOrder) (v : Byte) : (dataBits o v).length = 8 := by simp [dataBits]

@[simp] theorem parityBits_length (p : Parity) (v : Byte) : (parityBits p v).length = if p = .none then 0 else 1 := by
  cases p <;> rfl

/-- A frame has as many bits as `TXSR`. -/
@[simp] theorem frameBits_length (f : SerialFrame) (v : Byte) : (frameBits f v).length = frameLength f := by
  simp [frameBits, frameLength]; omega

@[simp] theorem frameLength_standard : frameLength .standard = 10 := rfl

theorem eight_le_frameLength (f : SerialFrame) : 8 ≤ frameLength f := by unfold frameLength; omega

/-- A shift keeps the length of a register that is not empty. -/
theorem shiftMark_length {w : List Level} (h : w ≠ []) : (shiftMark w).length = w.length := by
  cases w with
  | nil => exact absurd rfl h
  | cons _ _ => simp [shiftMark]

@[simp] theorem SerialTx.loaded_txd (c : SerialConfig) (w : List Level) :
    (SerialTx.loaded c w).txd = .drives (headLevel w) := rfl
@[simp] theorem SerialTx.loaded_txsr (c : SerialConfig) (w : List Level) : (SerialTx.loaded c w).txsr = w := rfl
@[simp] theorem SerialTx.loaded_baudcnt (c : SerialConfig) (w : List Level) :
    (SerialTx.loaded c w).baudcnt = baudDiv c - 1 := rfl

theorem one_le_baudDiv (c : SerialConfig) : 1 ≤ baudDiv c := Nat.le_max_left _ _

/-- While `BAUDCNT` is above 0, a reference period only counts it down. -/
theorem SerialTx.tick_counts {c : SerialConfig} {t : SerialTx} (h : t.baudcnt ≠ 0) :
    t.tick c = { t with baudcnt := t.baudcnt - 1 } := by simp [SerialTx.tick, h]

/-- At 0 it reloads and `TXSR` shifts once. -/
theorem SerialTx.tick_shifts {c : SerialConfig} {t : SerialTx} (h : t.baudcnt = 0) :
    t.tick c = SerialTx.loaded c (shiftMark t.txsr) := by simp [SerialTx.tick, h]

end Sys2Proof.Machine
end

