-- ==== Sys2Proof/Laws/Glyph.lean ====
section
/-! SUPPORT. Which cell each bit of the packed string carries. -/
namespace Sys2Proof.Machine

/-- The loop of R132 over any list of cells. -/
theorem packLoop_getLsbD (g : Glyph) (ks : List Nat) (w : BitVec 40) (i : Nat) (hi : i < 40) :
    (ks.foldl (fun w k => if g.getLsbD k then w ||| (1#40 <<< (39 - k)) else w) w).getLsbD i =
      (w.getLsbD i || ks.any (fun k => g.getLsbD k && decide (i = 39 - k))) := by
  induction ks generalizing w with
  | nil => simp
  | cons k ks ih =>
    rw [List.foldl_cons, ih]
    have hbit : (1#40 <<< (39 - k)).getLsbD i = decide (i = 39 - k) := by
      simp only [BitVec.getLsbD_shiftLeft, hi, decide_true, Bool.true_and, BitVec.getLsbD_one]
      by_cases h : i = 39 - k
      · simp [h]
      · simp [h]; omega
    cases hk : g.getLsbD k
    · simp [hk]
    · simp only [hk, if_true, BitVec.getLsbD_or, hbit, List.any_cons, Bool.true_and, Bool.or_assoc]

/-- `W[39-k] = g[k]`, and `W[4:0] = 0` (R132). -/
theorem packWord_getLsbD (g : Glyph) (i : Nat) (hi : i < 40) :
    (packWord g).getLsbD i = (decide (5 ≤ i) && g.getLsbD (39 - i)) := by
  unfold packWord
  rw [packLoop_getLsbD g _ _ i hi, Bool.eq_iff_iff]
  simp only [BitVec.getLsbD_zero, Bool.false_or, List.any_eq_true, List.mem_range, Bool.and_eq_true, decide_eq_true_eq]
  constructor
  · rintro ⟨k, hk, hg, rfl⟩
    exact ⟨by omega, by rwa [show 39 - (39 - k) = k by omega]⟩
  · rintro ⟨h5, hg⟩
    exact ⟨39 - i, by omega, hg, by omega⟩

@[simp] theorem pack_length (g : Glyph) : (pack g).length = 5 := by simp [pack]

end Sys2Proof.Machine
end

