-- ==== Sys2Proof/Laws/PerInstr.lean ====
section
/-! SUPPORT. One law an instruction at a time: every word of an instruction's encoding carries the selector of its row. -/
namespace Sys2Proof.Laws.Selector

/-- The selector of an instruction's row; `print` is issued as `write`, and `TxByte` has no word (R51, R121). -/
def ofInstr : Instr → OpSel
  | .begin => 0x0
  | .isBusy => 0x1
  | .write _ => 0x2
  | .clear => 0x3
  | .reset => 0x4
  | .setBrightness _ => 0x5
  | .setCursorMode _ => 0x6
  | .setCursorPosition _ => 0x7
  | .setCursor _ _ => 0x8
  | .home => 0x9
  | .defineCustomChar _ _ => 0xA
  | .backspace => 0xB
  | .horizontalTab => 0xC
  | .allDisplayOn => 0xD
  | .reservedE => 0xE
  | .reservedF => 0xF
  | .print _ => 0x2
  | .txByteSerial _ => 0x0
  | .txByteParallel _ => 0x0

/-- Every word the host presents for `i` has `i`'s selector. -/
def Statement (i : Instr) : Prop := ∀ w ∈ encode i, portOpSel w = ofInstr i

theorem begin : Statement .begin := by simp [Statement, encode, encodeH0, ofInstr]
theorem isBusy : Statement .isBusy := by simp [Statement, encode, encodeH0, ofInstr]
theorem write (b : Byte) : Statement (.write b) := by simp [Statement, encode, encodeH1, ofInstr]
theorem clear : Statement .clear := by simp [Statement, encode, encodeH0, ofInstr]
theorem reset : Statement .reset := by simp [Statement, encode, encodeH0, ofInstr]
theorem setBrightness (level : Byte) : Statement (.setBrightness level) := by
  simp [Statement, encode, encodeH1, ofInstr]
theorem setCursorMode (sel : Byte) : Statement (.setCursorMode sel) := by simp [Statement, encode, encodeH1, ofInstr]
theorem setCursorPosition (p : Byte) : Statement (.setCursorPosition p) := by
  simp [Statement, encode, encodeH1, ofInstr]
theorem setCursor (row col : Byte) : Statement (.setCursor row col) := by simp [Statement, encode, encodeH2, ofInstr]
theorem home : Statement .home := by simp [Statement, encode, encodeH0, ofInstr]
theorem defineCustomChar (slot : Byte) (g : Glyph) : Statement (.defineCustomChar slot g) := by
  simp [Statement, encode, encodeHG, ofInstr]
theorem backspace : Statement .backspace := by simp [Statement, encode, encodeH0, ofInstr]
theorem horizontalTab : Statement .horizontalTab := by simp [Statement, encode, encodeH0, ofInstr]
theorem allDisplayOn : Statement .allDisplayOn := by simp [Statement, encode, encodeH0, ofInstr]
theorem reservedE : Statement .reservedE := by simp [Statement, encode, encodeH0, ofInstr]
theorem reservedF : Statement .reservedF := by simp [Statement, encode, encodeH0, ofInstr]
theorem print (bs : List Byte) : Statement (.print bs) := by simp [Statement, encode, encodeH1, ofInstr]
theorem txByteSerial (v : Byte) : Statement (.txByteSerial v) := by simp [Statement, encode]
theorem txByteParallel (v : Byte) : Statement (.txByteParallel v) := by simp [Statement, encode]

end Sys2Proof.Laws.Selector
end

