-- ==== Sys2Proof/Laws/Sequencer.lean ====
section
/-! SUPPORT. The step by cases: at the port, and in each phase of the sequencer. -/
namespace Sys2Proof.Machine

theorem step_waiting {s : State} (hseq : s.seq = .idle) (hreq : s.requests = []) : step s = .next s := by
  simp [step, hseq, hreq]

theorem step_issuing {s : State} {w : PortWord} {rest : List PortWord} (hseq : s.seq = .idle)
    (hreq : s.requests = w :: rest) : step s = exec (decode w) (s.takeRequest rest) := by
  simp [step, hseq, hreq]

theorem step_running {s : State} {op : Instr} {bi : Nat} {ph : Phase} (hseq : s.seq = .run op bi ph) :
    step s = sequence op bi ph s := by
  simp [step, hseq]

theorem byteAt_eq_some {op : Instr} {bi : Nat} {v : Byte} :
    byteAt op bi = some v ↔ ∃ h : bi < (wireBytes op).length, (wireBytes op)[bi] = v := by
  simp [byteAt, List.getElem?_eq_some_iff]

/-- A running operation whose byte `bi` is `v` does its phase. -/
theorem sequence_of_byte {op : Instr} {bi : Nat} {ph : Phase} {v : Byte} {s : State} (h : byteAt op bi = some v) :
    sequence op bi ph s = runPhase op bi ph v s := by
  simp [sequence, h]

/-- What the phases can do: a next state comes from one row of the table of R14. -/
theorem sequence_cases {op : Instr} {bi : Nat} {ph : Phase} {s t : State} (h : sequence op bi ph s = .next t) :
    ∃ v, byteAt op bi = some v ∧
      ((∃ c l, s.transport = .parallel c l ∧
          ((ph = .wait ∧ t = phaseWait c op bi s) ∨ (ph = .drive ∧ t = phaseDrive c l op bi v s) ∨
           (ph = .selOn ∧ t = phaseSelOn c l op bi s) ∨ (ph = .wrLo ∧ t = phaseWrLo c l op bi s) ∨
           (ph = .wrHi ∧ t = phaseWrHi c l op bi s) ∨ (ph = .selOff ∧ t = phaseSelOff c l op bi v s) ∨
           (ph = .settle ∧ t = phaseSettle op s))) ∨
       (∃ c tx, s.transport = .serial c tx ∧
          ((ph = .send ∧ t = phaseSend c op bi v s) ∨ (∃ left, ph = .shift left ∧ t = phaseShift c tx op bi left s) ∨
           (ph = .settle ∧ t = phaseSettle op s)))) := by
  unfold sequence at h
  split at h
  · rename_i v hv
    refine ⟨v, hv, ?_⟩
    unfold runPhase at h
    split at h <;> simp_all
  · cases h

/-- A phase of the transport's own rows is never a fault. -/
theorem sequence_next_of_fits {op : Instr} {bi : Nat} {ph : Phase} {s : State} {v : Byte}
    (hv : byteAt op bi = some v) (hseq : s.seq = .run op bi ph)
    (hfit : ∀ r, runPhase op bi ph v s ≠ .fault r) : ∀ r, step s ≠ .fault r := by
  intro r
  rw [step_running hseq, sequence_of_byte hv]
  exact hfit r

/-- The end of a byte moves `SEQ` and nothing else. -/
theorem afterByte_eq (op : Instr) (bi : Nat) (s : State) :
    (bi + 1 < (wireBytes op).length ∧ afterByte op bi s = s.setSeq (.run op (bi + 1) s.transport.firstPhase)) ∨
    ((wireBytes op).length ≤ bi + 1 ∧ afterByte op bi s = s.setSeq (.run op bi .settle)) := by
  unfold afterByte
  split
  · exact .inl ⟨‹_›, rfl⟩
  · exact .inr ⟨by omega, rfl⟩

end Sys2Proof.Machine
end

