-- ==== Sys2Proof/Machine/Text.lean ====
section
/-! DEFINITION. The textual syntax of operations, one a line (`spec/30_encoding.md` R60). The DIC reads no text: this is how a
host program is written down, and no step uses it. -/
namespace Sys2Proof.Machine

/-- The pieces of a line: a mnemonic, number or mode name; a quoted string; a character operand; a comma. -/
inductive Token where
  | word (cs : List Char)
  | str (cs : List Char)
  | chr (c : Char)
  | comma
  deriving DecidableEq, Repr

/-- What the scanner is inside of, with the characters read so far, latest first. -/
inductive Scan where
  | between
  | word (rev : List Char)
  | str (rev : List Char)
  | chr (rev : List Char)
  deriving DecidableEq, Repr

/-- `"` (34) opens and closes a string. -/
def isDoubleQuote (c : Char) : Bool := c.toNat == 34

/-- `'` (39) opens and closes a character operand. -/
def isQuote (c : Char) : Bool := c.toNat == 39

/-- What separates the pieces of a line: blank (32), tab (9), and the parentheses (40, 41) of the procedure-call spelling,
which denotes the same operation (R60; log entry 23). -/
def isBlank (c : Char) : Bool := c.toNat == 32 || c.toNat == 9 || c.toNat == 40 || c.toNat == 41

/-- The pieces of a line, `acc` those read, latest first; a semicolon outside quotes begins a comment. -/
def scan : List Char → Scan → List Token → Option (List Token)
  | [], .between, acc => some acc.reverse
  | [], .word rev, acc => some (.word rev.reverse :: acc).reverse
  | [], .str _, _ => none
  | [], .chr _, _ => none
  | c :: cs, .between, acc =>
    if isBlank c then scan cs .between acc
    else if c == ';' then some acc.reverse
    else if c == ',' then scan cs .between (.comma :: acc)
    else if isDoubleQuote c then scan cs (.str []) acc
    else if isQuote c then scan cs (.chr []) acc
    else scan cs (.word [c]) acc
  | c :: cs, .word rev, acc =>
    if isBlank c then scan cs .between (.word rev.reverse :: acc)
    else if c == ';' then some (.word rev.reverse :: acc).reverse
    else if c == ',' then scan cs .between (.comma :: .word rev.reverse :: acc)
    else if isDoubleQuote c || isQuote c then none
    else scan cs (.word (c :: rev)) acc
  | c :: cs, .str rev, acc =>
    if isDoubleQuote c then scan cs .between (.str rev.reverse :: acc) else scan cs (.str (c :: rev)) acc
  | c :: cs, .chr rev, acc =>
    match rev with
    | [] => scan cs (.chr [c]) acc
    | [x] => if isQuote c then scan cs .between (.chr x :: acc) else none
    | _ => none

/-- A digit of a base up to 16. -/
def digitOf (base : Nat) (c : Char) : Option Nat :=
  let n := c.toNat
  let d := if 48 ≤ n ∧ n ≤ 57 then n - 48
    else if 97 ≤ n ∧ n ≤ 102 then n - 87
    else if 65 ≤ n ∧ n ≤ 70 then n - 55 else 16
  if d < base then some d else none

/-- The value of digits, `acc` that of the ones before. -/
def digitsValue (base : Nat) : List Char → Nat → Option Nat
  | [], acc => some acc
  | c :: cs, acc =>
    match digitOf base c with
    | some d => digitsValue base cs (base * acc + d)
    | none => none

/-- A decimal number, or a hexadecimal one after `0x`. -/
def numberValue : List Char → Option Nat
  | [] => none
  | [c] => digitsValue 10 [c] 0
  | c :: d :: cs =>
    if c == '0' && d == 'x' then (if cs.isEmpty then none else digitsValue 16 cs 0) else digitsValue 10 (c :: d :: cs) 0

/-- A number that an 8-bit operand port can carry (R53). -/
def byteOfNat (n : Nat) : Option Byte := if n < 256 then some (BitVec.ofNat 8 n) else none

/-- The ASCII code of a character. -/
def asciiCode (c : Char) : Option Byte := if c.toNat < 128 then some (BitVec.ofNat 8 c.toNat) else none

/-- An 8-bit operand: a number or a character. -/
def byteOperand : Token → Option Byte
  | .word cs => (numberValue cs).bind byteOfNat
  | .chr c => asciiCode c
  | .str _ => none
  | .comma => none

/-- A mode operand: `off`, `on`, `blink`, or its selector. -/
def modeOperand : Token → Option Byte
  | .word ['o', 'f', 'f'] => some 0
  | .word ['o', 'n'] => some 1
  | .word ['b', 'l', 'i', 'n', 'k'] => some 2
  | t => byteOperand t

/-- The ASCII codes of a string. -/
def stringBytes : List Char → Option (List Byte)
  | [] => some []
  | c :: cs =>
    match asciiCode c, stringBytes cs with
    | some b, some bs => some (b :: bs)
    | _, _ => none

/-- The bytes an operand of `print` stands for: a string's characters, or the one byte of a number or a character. -/
def printOperand : Token → Option (List Byte)
  | .str cs => stringBytes cs
  | .word cs => (byteOperand (.word cs)).map ([·])
  | .chr c => (byteOperand (.chr c)).map ([·])
  | .comma => none

/-- The bytes of `print`: those of its operands, one after the other. R60's grammar admits numbers and characters as
operands and R50 gives `print` a list of bytes, while R61 shows one string alone; taking one or more operands of any of the
three kinds is a DESIGN CHOICE (log entry 23). -/
def printBytes : List Token → Option (List Byte)
  | [t] => printOperand t
  | t :: .comma :: ts =>
    match printOperand t, printBytes ts with
    | some bs, some cs => some (bs ++ cs)
    | _, _ => none
  | _ => none

/-- The cells of a glyph literal, cell 0 first, into the bitmap from bit `k` up. -/
def glyphCells : List Char → Nat → Glyph
  | [], _ => 0
  | c :: cs, k => (if c == '#' then 1#35 <<< k else 0) ||| glyphCells cs (k + 1)

/-- A glyph literal: seven strings of five characters, rows 1 to 7, `#` set, `.` clear, separated by `/`. -/
def glyphLiteral (cs : List Char) : Option Glyph :=
  let cells := cs.filter (· != '/')
  if cs.length = 41 ∧ cells.length = 35 ∧ cells.all (fun c => c == '#' || c == '.') = true ∧
      (List.range 6).all (fun r => cs[6 * r + 5]? == some '/') = true then
    some (glyphCells cells 0)
  else none

/-- The operation of a line's pieces. -/
def parseTokens : List Token → Option Instr
  | .word m :: ops =>
    match String.ofList m, ops with
    | "begin", [] => some .begin
    | "isBusy", [] => some .isBusy
    | "write", [a] => (byteOperand a).map .write
    | "clear", [] => some .clear
    | "reset", [] => some .reset
    | "setBrightness", [a] => (byteOperand a).map .setBrightness
    | "setCursorMode", [a] => (modeOperand a).map .setCursorMode
    | "setCursorPosition", [a] => (byteOperand a).map .setCursorPosition
    | "setCursor", [a, .comma, b] =>
      match byteOperand a, byteOperand b with
      | some row, some col => some (.setCursor row col)
      | _, _ => none
    | "home", [] => some .home
    | "defineCustomChar", [a, .comma, .str g] =>
      match byteOperand a, glyphLiteral g with
      | some slot, some g => some (.defineCustomChar slot g)
      | _, _ => none
    | "backspace", [] => some .backspace
    | "horizontalTab", [] => some .horizontalTab
    | "allDisplayOn", [] => some .allDisplayOn
    | "print", ops => (printBytes ops).map .print
    | _, _ => none
  | _ => none

/-- The operation a line denotes, none where it is not of the syntax (R60). -/
def parseLine (line : List Char) : Option Instr := (scan line .between []).bind parseTokens

/-- The port words of a host program in text, a line each; none where a line is not of the syntax. -/
def assemble : List (List Char) → Option (List PortWord)
  | [] => some []
  | l :: ls =>
    match parseLine l, assemble ls with
    | some i, some ws => some (encode i ++ ws)
    | _, _ => none

end Sys2Proof.Machine
end

