-- ==== Sys2Proof/Tests/Slice0.lean ====
section
/-! SUPPORT. Tests, their expected results from the spec's own vectors (`spec/95_test_vectors.md`) and tables, and for each
statement with hypotheses a witness that meets them. -/
namespace Sys2Proof.Machine.Tests

/-! ### Well-formedness -/

theorem test_wf_modes : [0, 1, 2].all (fun m => (Instr.setCursorMode m).wellFormed) = true := by decide
theorem test_wf_refuses_reserved_mode : (Instr.setCursorMode 3).wellFormed = false := by decide
theorem test_wf_refuses_reserved_selectors : (Instr.reservedE.wellFormed || Instr.reservedF.wellFormed) = false := by decide
theorem test_wf_refuses_internal : ((Instr.txByteSerial 0x41).wellFormed || (Instr.txByteParallel 0x41).wellFormed) = false := by
  decide
/-- R58 items 3 to 6: out-of-range positions, rows, columns, slots and control bytes are legal. -/
theorem test_wf_legal_out_of_range : ((Instr.setCursorPosition 255).wellFormed && (Instr.setCursor 7 200).wellFormed &&
    (Instr.defineCustomChar 255 0).wellFormed && (Instr.write 0x0D).wellFormed) = true := by decide
theorem test_wf_refuses_no_reference : (TransportConfig.serial ⟨0, 1, 9600, 0, .standard⟩).wellFormed = false := by decide
theorem test_wf_refuses_slow_reference : (TransportConfig.serial ⟨0, 1, 9600, 4799, .standard⟩).wellFormed = false := by
  decide
/-- R78: at exactly one half the tie decides, and which way it goes is free. -/
theorem test_wf_half_follows_the_tie :
    (TransportConfig.serial ⟨0, 1, 2, 1, .standard⟩).wellFormed = Config.roundTieUp := rfl

/-! ### Decoding: words written out from the table of R51, `arg_g`, `arg_b`, `arg_a` (8 bits), `op_sel` (4 bits) -/

theorem test_decode_begin : decode 0b0000 = .begin := by decide
theorem test_decode_isBusy : decode 0b0001 = .isBusy := by decide
theorem test_decode_write : decode 0b01001000_0010 = .write 0x48 := by decide
theorem test_decode_clear : decode 0b0011 = .clear := by decide
theorem test_decode_reset : decode 0b0100 = .reset := by decide
theorem test_decode_setBrightness : decode 0b10000000_0101 = .setBrightness 0x80 := by decide
theorem test_decode_setCursorMode : decode 0b00000010_0110 = .setCursorMode 2 := by decide
theorem test_decode_setCursorPosition : decode 0b00100111_0111 = .setCursorPosition 39 := by decide
theorem test_decode_setCursor : decode 0b00010011_00000001_1000 = .setCursor 1 19 := by decide
theorem test_decode_home : decode 0b1001 = .home := by decide
/-- E19: slot 1 and the up-arrow glyph. -/
theorem test_decode_defineCustomChar :
    decode 0b00100001000010000100101010111000100_00000000_00000001_1010 = .defineCustomChar 1 0x1084255C4 := by decide
theorem test_decode_backspace : decode 0b1011 = .backspace := by decide
theorem test_decode_horizontalTab : decode 0b1100 = .horizontalTab := by decide
theorem test_decode_allDisplayOn : decode 0b1101 = .allDisplayOn := by decide
theorem test_decode_reservedE : decode 0b1110 = .reservedE := by decide
theorem test_decode_reservedF : decode 0b1111 = .reservedF := by decide
theorem test_encode_print : encode (.print [0x48, 0x69]) = [0b01001000_0010, 0b01101001_0010] := by decide
theorem test_encode_internal : encode (.txByteSerial 1) ++ encode (.txByteParallel 1) = [] := by decide
theorem test_table_word : decodeTableWord 8 0x03 = some .clear := by decide
theorem test_table_word_too_wide : decodeTableWord 64 (2 ^ 55) = none := by decide

/-! ### The glyph packer: G7, G12, G31 -/

theorem test_pack_straddles_bytes : pack 0x000000100 = [0x00, 0x80, 0x00, 0x00, 0x00] := by decide
theorem test_pack_up_arrow : pack 0x1084255C4 = [0x23, 0xAA, 0x42, 0x10, 0x80] := by decide
theorem test_pack_heart : pack 0x008EFFD40 = [0x02, 0xBF, 0xF7, 0x10, 0x00] := by decide
theorem test_unpack_up_arrow : unpack [0x23, 0xAA, 0x42, 0x10, 0x80] = 0x1084255C4 := by decide

/-! ### Small states -/

/-- A Serial instance with a bit time of one reference period. -/
def serialConfig : SerialConfig := { rxPin := 0, txPin := 1, baud := 9600, fRef := 9600, frame := .standard }

/-- A Parallel instance, `BUSY` active high and `SEL` active low. -/
def parallelConfig : ParallelConfig :=
  { pinD := #v[0, 1, 2, 3, 4, 5, 6, 7], pinWr := 8, pinSel := 9, pinBusy := 10, busyActive := .high, selActive := .low }

/-- A Serial instance after `begin`, `POS` at `p`. -/
def serialReady (p : Pos) : State :=
  { State.construct (.serial serialConfig) with
    pos := p, en := true
    transport := .serial serialConfig { SerialTx.undriven serialConfig with txd := .drives .high } }

/-- A Parallel instance after `begin`, `POS` at `p`, whose module will answer `ls`. -/
def parallelReady (p : Pos) (ls : List Level) : State :=
  { State.construct (.parallel parallelConfig) with
    pos := p, en := true, transport := .parallel parallelConfig (.parked 0), moduleBusy := ls }

/-- The part of an outcome a test looks at. -/
def look {α : Type} (f : State → α) : Host.Outcome State Fault Refusal → Option α
  | .next s => some (f s)
  | .fault _ => none
  | .refused _ => none

/-- The refusal of an outcome. -/
def refusalOf : Host.Outcome State Fault Refusal → Option Refusal
  | .next _ => none
  | .fault _ => none
  | .refused r => some r

/-! ### The operations, one step each -/

/-- T9. -/
theorem test_begin_serial :
    look (fun s => (s.en, s.trace)) (exec .begin (State.construct (.serial serialConfig))) = some (true, [.opened 9600]) := by
  decide
/-- T8. -/
theorem test_begin_parallel :
    look (fun s => (s.transport, s.trace)) (exec .begin (State.construct (.parallel parallelConfig))) =
      some (.parallel parallelConfig ⟨.drives 0x00, .drives .high, .drives .deasserted, true⟩, [.config]) := by decide
/-- T10. -/
theorem test_isBusy_asserted :
    look (fun s => (s.busyQ, s.trace)) (exec .isBusy (parallelReady 7 [.high])) = some (true, [.busy .asserted]) := by decide
/-- T12. -/
theorem test_isBusy_serial : look (fun s => (s.busyQ, s.trace)) (exec .isBusy (serialReady 7)) = some (false, []) := by decide
/-- R118: from 39 to 0. -/
theorem test_write_wraps : look (fun s => (s.pos, s.seq)) (exec (.write 0x41) (serialReady 39)) =
    some (0, .run (.write 0x41) 0 .send) := by decide
/-- R110: from row 0 to row 1. -/
theorem test_write_crosses_rows : look (·.pos) (exec (.write 0x0D) (parallelReady 19 [])) = some 20 := by decide
/-- E1. -/
theorem test_clear : look (fun s => (s.pos, s.seq)) (exec .clear (serialReady 7)) = some (0, .run .clear 0 .send) := by decide
/-- R91: the module's reset leaves `EN` set. -/
theorem test_reset_keeps_en : look (fun s => (s.pos, s.en)) (exec .reset (parallelReady 39 [])) = some (0, true) := by decide
/-- E5. -/
theorem test_setBrightness : look (fun s => (s.pos, byteAt (.setBrightness 0x80) 1)) (exec (.setBrightness 0x80) (serialReady 7)) =
    some (7, some 0x80) := by decide
/-- E8. -/
theorem test_setCursorMode_blink : wireBytes (.setCursorMode 2) = [0x17, 0x88] := by decide
/-- E9. -/
theorem test_setCursorMode_reserved : refusalOf (exec (.setCursorMode 3) (serialReady 7)) = some (.reservedMode 3) := by decide
/-- E15: 41 becomes 0, not 1 and not 39. -/
theorem test_setCursorPosition_41 : look (fun s => (s.pos, s.seq)) (exec (.setCursorPosition 41) (serialReady 7)) =
    some (0, .run (.setCursorPosition 0) 0 .send) := by decide
/-- E13. -/
theorem test_setCursorPosition_39 : wireBytes (.setCursorPosition 39) = [0x10, 0x27] := by decide
/-- C4. -/
theorem test_setCursor_bad_row : look (·.pos) (exec (.setCursor 2 5) (serialReady 7)) = some 5 := by decide
/-- C7. -/
theorem test_setCursor_bad_column : wireBytes (.setCursor 1 20) = [0x10, 0x14] := by decide
/-- R120. -/
theorem test_home : look (fun s => (s.pos, wireBytes .home)) (exec .home (serialReady 33)) = some (0, [0x10, 0x00]) := by decide
/-- E19. -/
theorem test_defineCustomChar : wireBytes (.defineCustomChar 1 0x1084255C4) = [0x03, 0x1C, 0x23, 0xAA, 0x42, 0x10, 0x80] := by
  decide
/-- E20. -/
theorem test_defineCustomChar_no_op : look id (exec (.defineCustomChar 4 0x7FFFFFFFF) (serialReady 7)) = some (serialReady 7) := by
  decide
/-- S2. -/
theorem test_backspace_wraps : look (·.pos) (exec .backspace (serialReady 0)) = some 39 := by decide
/-- R96: across rows. -/
theorem test_backspace_crosses_rows : look (·.pos) (exec .backspace (parallelReady 20 [])) = some 19 := by decide
/-- E23. -/
theorem test_horizontalTab : look (fun s => (s.pos, s.seq)) (exec .horizontalTab (serialReady 7)) =
    some (8, .run .horizontalTab 0 .send) := by decide
/-- E24. -/
theorem test_allDisplayOn : look (·.pos) (exec .allDisplayOn (serialReady 7)) = some 7 := by decide
/-- X1. -/
theorem test_reservedE : refusalOf (exec .reservedE (serialReady 7)) = some (.reservedSelector 0xE) := by decide
theorem test_reservedF : refusalOf (exec .reservedF (serialReady 7)) = some (.reservedSelector 0xF) := by decide
/-- R121. -/
theorem test_print : look (·.requests) (exec (.print [0x48, 0x69]) (serialReady 0)) = some [0x482, 0x692] := by decide
theorem test_print_empty : look id (exec (.print []) (serialReady 5)) = some (serialReady 5) := by decide
theorem test_txByteSerial : look (fun s => (s.pos, s.seq)) (exec (.txByteSerial 0x0D) (serialReady 7)) =
    some (7, .run (.txByteSerial 0x0D) 0 .send) := by decide
theorem test_txByteParallel_wrong : refusalOf (exec (.txByteParallel 0x41) (serialReady 7)) = some .wrongTransport := by decide
/-- T13, X3. -/
theorem test_write_before_begin : refusalOf (exec (.write 0x41) State.reset) = some .notBegun := by decide
/-- T14, X4. -/
theorem test_begin_twice : refusalOf (exec .begin (serialReady 0)) = some .begunTwice := by decide

/-! ### The phases, one step each: T2, T3, T1, T15, E1 -/

/-- A state in a phase of `TxByte(0x41)` on Parallel. -/
def phaseState (ph : Phase) (l : Latches) (ls : List Level) : State :=
  { parallelReady 7 ls with transport := .parallel parallelConfig l, seq := .run (.txByteParallel 0x41) 0 ph }

theorem test_wait_asserted : look (fun s => (s.seq, s.trace)) (step (phaseState .wait (.parked 0) [.high, .low])) =
    some (.run (.txByteParallel 0x41) 0 .wait, [.busy .asserted, .delay .poll]) := by decide
theorem test_wait_deasserted : look (fun s => (s.seq, s.trace)) (step (phaseState .wait (.parked 0) [.low])) =
    some (.run (.txByteParallel 0x41) 0 .drive, [.busy .deasserted]) := by decide
theorem test_drive : look (fun s => (s.transport, s.trace)) (step (phaseState .drive (.parked 0) [])) =
    some (.parallel parallelConfig (.parked 0x41), [.data 0x41]) := by decide
theorem test_selOn : look (fun s => (s.seq, s.trace)) (step (phaseState .selOn (.parked 0x41) [])) =
    some (.run (.txByteParallel 0x41) 0 .wrLo, [.sel .asserted]) := by decide
theorem test_wrLo : look (·.trace) (step (phaseState .wrLo (.parked 0x41) [])) = some [.wr .low, .delay .wrLow] := by decide
theorem test_wrHi : look (·.trace) (step (phaseState .wrHi (.parked 0x41) [])) = some [.wr .high, .delay .wrHigh] := by decide
theorem test_selOff : look (fun s => (s.seq, s.trace)) (step (phaseState .selOff (.parked 0x41) [])) =
    some (.run (.txByteParallel 0x41) 0 .settle, [.sel .deasserted, .tx 0x41]) := by decide
/-- Data lines 0 and 6 are high (R72's example). -/
theorem test_data_lines : (List.range 8).map (Latches.dataLine (.parked 0x41)) =
    [.drives .high, .drives .low, .drives .low, .drives .low, .drives .low, .drives .low, .drives .high, .drives .low] := by
  decide
theorem test_send : look (fun s => (s.trace, s.transport))
    (step { serialReady 7 with seq := .run (.txByteSerial 0x41) 0 .send }) =
    some ([.tx 0x41], .serial serialConfig
      ⟨.drives .low, [.low, .high, .low, .low, .low, .low, .low, .high, .low, .high], 0⟩) := by decide
/-- R77's terms: even parity on 0x43 (three ones), two stop bits, most significant bit first. -/
theorem test_frame_parity : frameBits ⟨1, .lsbFirst, .even, 1⟩ 0x43 =
    [.low, .high, .high, .low, .low, .low, .low, .high, .low, .high, .high] := by decide
theorem test_frame_order : frameBits ⟨1, .msbFirst, .none, 2⟩ 0x43 =
    [.low, .low, .high, .low, .low, .low, .low, .high, .high, .high, .high] := by decide
/-- R78: 1000000 / 9600 is 104.17. -/
theorem test_baud_div : baudDiv ⟨0, 1, 9600, 1000000, .standard⟩ = 104 := by decide
/-- A reference of 7/2 periods a second at 2 bits a second: 1.75 rounds up. -/
theorem test_baud_div_fraction : baudDiv ⟨0, 1, 2, ⟨7, 2, by decide, by decide⟩, .standard⟩ = 2 := by decide
/-- The last bit time of a frame ends with the gap. -/
theorem test_shift_last : look (fun s => (s.trace, s.seq))
    (step { serialReady 7 with seq := .run (.txByteSerial 0x0D) 0 (.shift 1) }) =
    some ([.delay .gap], .run (.txByteSerial 0x0D) 0 .settle) := by decide
theorem test_settle_clear : look (fun s => (s.trace, s.seq)) (step { serialReady 0 with seq := .run .clear 0 .settle }) =
    some ([.delay (.settle .clear)], .idle) := by decide
theorem test_settle_write : look (fun s => (s.trace, s.seq)) (step { serialReady 8 with seq := .run (.write 0x41) 0 .settle }) =
    some ([], .idle) := by decide

/-! ### The port, and the text syntax -/

theorem test_fetch : look (fun s => (s.pos, s.requests)) (step ((serialReady 7).withFetchWord 8 0x03)) = some (0, []) := by decide
theorem test_first_is_begin : look (·.en) (step (State.reset.withFetchWord 8 0x00)) = some true := by decide
theorem test_parse_setCursor : parseLine "setCursor 1, 0x13 ; row 1".toList = some (.setCursor 1 19) := by decide
theorem test_parse_call : parseLine "setCursor(1, 0)".toList = some (.setCursor 1 0) := by decide
theorem test_parse_print : parseLine "print \"Hi\"".toList = some (.print [0x48, 0x69]) := by decide
theorem test_parse_print_bytes : parseLine "print 0x48, 'i', \"!\"".toList = some (.print [0x48, 0x69, 0x21]) := by decide
theorem test_parse_print_nothing : parseLine "print".toList = none ∧ parseLine "print 0x48,".toList = none := by decide
/-- The glyph literal of P3. -/
theorem test_parse_glyph : parseLine "defineCustomChar 1, \"..#../.###./#.#.#/..#../..#../..#../..#..\"".toList =
    some (.defineCustomChar 1 0x1084255C4) := by decide

/-! ### Witnesses: states and operands that meet the hypotheses of the statements -/

theorem serialReady_ready (p : Pos) (h : p.toNat ≤ 39) : Ready (serialReady p) :=
  ⟨⟨h, trivial, ⟨rfl, rfl⟩⟩, rfl, rfl⟩

theorem parallelReady_ready (p : Pos) (ls : List Level) (h : p.toNat ≤ 39) : Ready (parallelReady p ls) :=
  ⟨⟨h, trivial, rfl⟩, rfl, rfl⟩

/-- Two polls before the first byte, none before the second. -/
def twoByteAnswers : List Level := [.high, .high, .low, .low]

/-- Seven bytes, the module always ready. -/
def sevenByteAnswers : List Level := [.low, .low, .low, .low, .low, .low, .low]

theorem witness_WireLengthIsToldByTheOpcode :
    (Instr.setCursorMode 2).wellFormed = true ∧ (settleOf (.setCursorMode 2)).isSome := by decide
theorem witness_PackFollowsTheCellTable : 4 < 5 ∧ 7 < 8 := by decide
theorem witness_UnpackInvertsPack : 34 < 35 ∧ [0x00#8, 0x00, 0x00, 0x00, 0x20].length = 5 := by decide
theorem witness_AdvanceWrapsAtForty : (39#6 : Pos).toNat ≤ 39 ∧ Ready (serialReady 39) ∧ Ready (parallelReady 19 []) :=
  ⟨by decide, serialReady_ready _ (by decide), parallelReady_ready _ _ (by decide)⟩
theorem witness_CursorArithmeticLaws : (0#6 : Pos).toNat ≤ 39 ∧ (39#6 : Pos).toNat ≤ 39 := by decide
theorem witness_HomeOperationsForceZero : Ready (serialReady 39) ∧ Instr.home ∈ [Instr.clear, Instr.reset, Instr.home] :=
  ⟨serialReady_ready _ (by decide), by decide⟩

/-- One byte on each transport, with two polls on Parallel: `clear`, `reset`, `backspace`, `horizontalTab`, `allDisplayOn`,
`write`, `TxByte`. -/
theorem witness_one_byte :
    Ready (serialReady 7) ∧ (serialReady 7).moduleBusy = moduleAnswers (serialReady 7).transport [0] ++ [] ∧
      Ready (parallelReady 7 [.high, .high, .low]) ∧
      (parallelReady 7 [.high, .high, .low]).moduleBusy =
        moduleAnswers (parallelReady 7 [.high, .high, .low]).transport [2] ++ [] ∧ [2].length = [0x0D#8].length :=
  ⟨serialReady_ready _ (by decide), rfl, parallelReady_ready _ _ (by decide), rfl, rfl⟩

/-- Two bytes on Parallel: `setBrightness`, `setCursorMode`, `setCursorPosition`, `setCursor`, `home`, `print`. -/
theorem witness_two_bytes :
    Ready (parallelReady 7 twoByteAnswers) ∧
      (parallelReady 7 twoByteAnswers).moduleBusy = moduleAnswers (parallelReady 7 twoByteAnswers).transport [2, 0] ++ [] ∧
      [2, 0].length = [0x04#8, 0x80].length :=
  ⟨parallelReady_ready _ _ (by decide), rfl, rfl⟩

theorem witness_ClearSendsItsByte : portOpSel 0x3 = 0x3 ∧ Ready (parallelReady 17 [.low]) :=
  ⟨by decide, parallelReady_ready _ _ (by decide)⟩
theorem witness_ResetSendsItsByte : portOpSel 0x4 = 0x4 ∧ Ready (serialReady 39) :=
  ⟨by decide, serialReady_ready _ (by decide)⟩
theorem witness_SetBrightnessSendsTheLevel : portOpSel 0x805 = 0x5 ∧ Ready (serialReady 7) :=
  ⟨by decide, serialReady_ready _ (by decide)⟩
theorem witness_SetCursorModeSendsTheModeByte : portOpSel 0x026 = 0x6 ∧ Ready (serialReady 7) ∧ 2 < (3#8).toNat :=
  ⟨by decide, serialReady_ready _ (by decide), by decide⟩
theorem witness_SetCursorPositionStoresAndSends : portOpSel 0x287 = 0x7 ∧ Ready (serialReady 7) ∧
    (39#8 = if 39 < (39#8).toNat then 0 else 39#8) ∧ (0#8 = if 39 < (40#8).toNat then 0 else 40#8) :=
  ⟨by decide, serialReady_ready _ (by decide), by decide, by decide⟩
theorem witness_DefineCustomCharSendsTheGlyph : portOpSel 0x1A = 0xA ∧ Ready (parallelReady 7 sevenByteAnswers) ∧
    (parallelReady 7 sevenByteAnswers).moduleBusy =
      moduleAnswers (parallelReady 7 sevenByteAnswers).transport [0, 0, 0, 0, 0, 0, 0] ++ [] ∧
    (3#8).toNat ≤ 3 ∧ 3 < (4#8).toNat :=
  ⟨by decide, parallelReady_ready _ _ (by decide), rfl, by decide, by decide⟩
theorem witness_BackspaceRetreats : portOpSel 0xB = 0xB ∧ Ready (serialReady 0) ∧ Ready (serialReady 1) :=
  ⟨by decide, serialReady_ready _ (by decide), serialReady_ready _ (by decide)⟩
theorem witness_HorizontalTabAdvances : portOpSel 0xC = 0xC ∧ Ready (serialReady 39) ∧ Ready (serialReady 38) :=
  ⟨by decide, serialReady_ready _ (by decide), serialReady_ready _ (by decide)⟩
theorem witness_AllDisplayOnSendsItsByte : portOpSel 0xD = 0xD ∧ Ready (serialReady 7) :=
  ⟨by decide, serialReady_ready _ (by decide)⟩
theorem witness_WriteSendsTheByteAndAdvances : portOpSel 0x412 = 0x2 ∧ Ready (serialReady 39) :=
  ⟨by decide, serialReady_ready _ (by decide)⟩
theorem witness_SetCursorResolvesRowAndColumn : portOpSel 0x13018 = 0x8 ∧ Ready (serialReady 7) ∧
    (1#8 = if (1#8).toNat ≤ 1 then 1#8 else 0) ∧ (0#8 = if (2#8).toNat ≤ 1 then 2#8 else 0) ∧
    (19#8 = if (19#8).toNat ≤ 19 then 19#8 else 0) ∧ (0#8 = if (20#8).toNat ≤ 19 then 20#8 else 0) :=
  ⟨by decide, serialReady_ready _ (by decide), by decide, by decide, by decide, by decide⟩
theorem witness_HomeSendsPositionZero : portOpSel 0x9 = 0x9 ∧ Ready (serialReady 33) :=
  ⟨by decide, serialReady_ready _ (by decide)⟩
theorem witness_PrintWritesEachByteInOrder : (serialReady 0).seq = .idle ∧ Ready (parallelReady 38 twoByteAnswers) ∧
    [2, 0].length = [0x48#8, 0x69].length ∧
    (parallelReady 38 twoByteAnswers).moduleBusy =
      moduleAnswers (parallelReady 38 twoByteAnswers).transport [2, 0] ++ [] :=
  ⟨rfl, parallelReady_ready _ _ (by decide), rfl, rfl⟩
theorem witness_BeginStartsTheTransport : portOpSel 0x0 = 0x0 ∧
    (State.construct (.serial serialConfig)).seq = .idle ∧ (State.construct (.serial serialConfig)).en = false ∧
    (State.construct (.serial serialConfig)).transport = .serial serialConfig (.undriven serialConfig) ∧
    (State.construct (.parallel parallelConfig)).transport = .parallel parallelConfig .undriven ∧
    (serialReady 0).seq = .idle ∧ (serialReady 0).en = true := by decide
theorem witness_IsBusyReportsOneSample : portOpSel 0x1 = 0x1 ∧ Ready (parallelReady 7 [.high]) ∧ Ready (parallelReady 7 []) ∧
    Ready (serialReady 7) ∧ (parallelReady 7 [.high]).transport = .parallel parallelConfig (.parked 0) ∧
    (parallelReady 7 [.high]).moduleBusy = .high :: [] ∧ (parallelReady 7 []).moduleBusy = [] :=
  ⟨by decide, parallelReady_ready _ _ (by decide), parallelReady_ready _ _ (by decide), serialReady_ready _ (by decide), rfl, rfl,
    rfl⟩
theorem witness_TxByteTransfersOneByte : Ready (serialReady 7) ∧ Ready (parallelReady 7 [.high, .low]) ∧
    (serialReady 7).transport.mode = .serial ∧ (parallelReady 7 [.high, .low]).transport.mode = .parallel :=
  ⟨serialReady_ready _ (by decide), parallelReady_ready _ _ (by decide), rfl, rfl⟩
theorem witness_ReservedSelectorsAreRefused : portOpSel 0xE = 0xE ∧ portOpSel 0xF = 0xF := by decide
theorem witness_NothingButBeginRunsBeforeBegin : State.reset.seq = .idle ∧ State.reset.en = false ∧
    0x1 ≤ (portOpSel 0x1).toNat ∧ (portOpSel 0x1).toNat ≤ 0xD ∧ 0x1 ≤ (portOpSel 0xD).toNat ∧ (portOpSel 0xD).toNat ≤ 0xD := by
  decide
theorem witness_BusyQIsUnreadableBeforeIsBusy :
    exec .isBusy (serialReady 7) = .next ((serialReady 7).answerBusy false) ∧
    ((serialReady 7).setRequests [0x4A]).readBusyQ = .refused .busyQUnread ∧
    step ((serialReady 7).setRequests [0x4A]) = .next (serialReady 7) ∧ decode 0x4A ≠ .isBusy ∧
    Ready (serialReady 7) ∧ Ready (parallelReady 7 [.low]) ∧ (parallelReady 7 [.low]).moduleBusy = .low :: [] ∧
    Ready (parallelReady 7 []) ∧ (parallelReady 7 []).moduleBusy = [] :=
  ⟨rfl, rfl, rfl, by decide, serialReady_ready _ (by decide), parallelReady_ready _ _ (by decide), rfl,
    parallelReady_ready _ _ (by decide), rfl⟩
theorem witness_StepRunsTheOperationOnThePort :
    ((serialReady 7).setRequests [0x3]).seq = .idle ∧ ((serialReady 7).setRequests [0x3]).requests = 0x3 :: [] ∧
    (serialReady 7).requests = [] ∧ (phaseState .wait (.parked 0) []).seq = .run (.txByteParallel 0x41) 0 .wait ∧
    decodeTableWord 8 0x03 = some .clear := by decide

/-- A state in a phase of `TxByte(0x41)` on Parallel that meets the invariant. -/
theorem phaseState_wait_invariant (ls : List Level) : Invariant (phaseState .wait (.parked 0) ls) :=
  ⟨Nat.le_of_ble_eq_true rfl, ⟨rfl, Nat.le_of_ble_eq_true rfl, rfl, fun h => Phase.noConfusion h⟩, rfl⟩

theorem phaseState_wrHi_invariant :
    Invariant (phaseState .wrHi ⟨.drives 0x41, .drives .low, .drives .asserted, true⟩ []) :=
  ⟨Nat.le_of_ble_eq_true rfl, ⟨rfl, Nat.le_of_ble_eq_true rfl, rfl, fun h => Phase.noConfusion h⟩, rfl⟩

theorem witness_RunningOperationKeepsTheRegisters :
    step (phaseState .drive (.parked 0) []) =
      .next (phaseDrive parallelConfig (.parked 0) (.txByteParallel 0x41) 0 0x41 (phaseState .drive (.parked 0) [])) := rfl
theorem witness_BusyWaitEndsOnlyWhenDeasserted :
    Invariant (phaseState .wait (.parked 0) [.high, .high, .low]) ∧ Invariant (phaseState .wait (.parked 0) [.low]) ∧
    (phaseState .wait (.parked 0) [.high, .high, .low]).moduleBusy = List.replicate 2 parallelConfig.busyActive ++ [.low] ∧
    (phaseState .wait (.parked 0) [.low]).moduleBusy = opposite parallelConfig.busyActive :: [] :=
  ⟨phaseState_wait_invariant _, phaseState_wait_invariant _, rfl, rfl⟩
theorem witness_DataLinesCarryTheByte :
    (phaseState .drive (.parked 0) []).transport = .parallel parallelConfig (.parked 0) ∧
    (phaseState .drive (.parked 0) []).seq = .run (.txByteParallel 0x41) 0 .drive ∧
    byteAt (.txByteParallel 0x41) 0 = some 0x41 := by decide

/-- A Serial instance about to send 0x41. -/
def sendState : State := { serialReady 7 with seq := .run (.txByteSerial 0x41) 0 .send }

theorem sendState_invariant : Invariant sendState :=
  ⟨Nat.le_of_ble_eq_true rfl, ⟨rfl, Nat.le_of_ble_eq_true rfl, rfl, fun h => Phase.noConfusion h⟩, ⟨rfl, rfl⟩⟩

theorem witness_SerialLineCarriesTheFrame :
    sendState.transport = .serial serialConfig ⟨.drives .high, List.replicate 10 .high, 0⟩ ∧ serialConfig.frame = .standard ∧
    sendState.seq = .run (.txByteSerial 0x41) 0 .send ∧ byteAt (.txByteSerial 0x41) 0 = some 0x41 ∧
    0 < frameLength serialConfig.frame ∧ 9 < frameLength serialConfig.frame ∧ 0 < baudDiv serialConfig := by decide
theorem witness_SerialByteTakesItsBitTimes :
    sendState.transport.mode = .serial ∧ sendState.seq = .run (.txByteSerial 0x41) 0 .send ∧
    byteAt (.txByteSerial 0x41) 0 = some 0x41 := by decide
theorem witness_SerialOperationsAlwaysReturn : Invariant sendState ∧ sendState.transport.mode = .serial ∧
    sendState.seq = .run (.txByteSerial 0x41) 0 .send :=
  ⟨sendState_invariant, rfl, rfl⟩
theorem witness_StepKeepsTheInvariant : Invariant (phaseState .wait (.parked 0) [.high]) ∧
    step (phaseState .wait (.parked 0) [.high]) =
      .next (phaseWait parallelConfig (.txByteParallel 0x41) 0 (phaseState .wait (.parked 0) [.high])) :=
  ⟨phaseState_wait_invariant _, rfl⟩
theorem witness_StepKeepsThePositionInRange : PosOk ((serialReady 39).setRequests [0xC]) ∧
    step ((serialReady 39).setRequests [0xC]) = exec .horizontalTab (serialReady 39) :=
  ⟨Nat.le_of_ble_eq_true rfl, rfl⟩
theorem witness_NoStepFaults : Invariant sendState := sendState_invariant
theorem witness_StrobeKeepsItsLines :
    Invariant (parallelReady 7 []) ∧ (parallelReady 7 []).seq = .idle ∧ (parallelReady 7 []).en = true ∧
    Invariant (phaseState .wrHi ⟨.drives 0x41, .drives .low, .drives .asserted, true⟩ []) ∧
    step (phaseState .wrHi ⟨.drives 0x41, .drives .low, .drives .asserted, true⟩ []) =
      .next (phaseWrHi parallelConfig ⟨.drives 0x41, .drives .low, .drives .asserted, true⟩ (.txByteParallel 0x41) 0
        (phaseState .wrHi ⟨.drives 0x41, .drives .low, .drives .asserted, true⟩ [])) :=
  ⟨(parallelReady_ready _ _ (by decide)).inv, rfl, rfl, phaseState_wrHi_invariant, rfl⟩
theorem witness_InstanceConstantsAreKept : sendState.en = true ∧
    step sendState = .next (phaseSend serialConfig (.txByteSerial 0x41) 0 0x41 sendState) := ⟨rfl, rfl⟩
theorem witness_OnlyIsBusyChangesBusyQ :
    step ((serialReady 7).setRequests [0x1]) = .next ((serialReady 7).answerBusy false) ∧
    ((serialReady 7).answerBusy false).busyQValid ≠ ((serialReady 7).setRequests [0x1]).busyQValid := ⟨rfl, by decide⟩
theorem witness_TraceOnlyGrows :
    step sendState = .next (phaseSend serialConfig (.txByteSerial 0x41) 0 0x41 sendState) := rfl

/-- The Serial instance whose host has one operation to issue: a `defineCustomChar` that does nothing. -/
theorem serialIssue_invariant : Invariant ((serialReady 7).setRequests [0x4A]) :=
  ⟨Nat.le_of_ble_eq_true rfl, trivial, ⟨rfl, rfl⟩⟩

theorem witness_BytesLeaveInIssueOrder :
    Invariant ((serialReady 7).setRequests [0x4A]) ∧ ((serialReady 7).setRequests [0x4A]).seq = .idle ∧
    run 1 ((serialReady 7).setRequests [0x4A]) = .next (serialReady 7) ∧ Finished (serialReady 7) :=
  ⟨serialIssue_invariant, rfl, rfl, ⟨rfl, rfl⟩⟩
theorem witness_PositionsFollowInIssueOrder :
    ((serialReady 7).setRequests [0x4A]).seq = .idle ∧
    run 1 ((serialReady 7).setRequests [0x4A]) = .next (serialReady 7) ∧ Finished (serialReady 7) :=
  ⟨rfl, rfl, ⟨rfl, rfl⟩⟩
/-- `clear` on both transports, the module answering asserted once on Parallel: issue, ten bit times or a strobe, settle. -/
theorem witness_BothTransportsSendTheSameBytes :
    Invariant ((serialReady 7).setRequests [0x3]) ∧ Invariant ((parallelReady 7 [.high, .low]).setRequests [0x3]) ∧
    ((serialReady 7).setRequests [0x3]).seq = .idle ∧ ((parallelReady 7 [.high, .low]).setRequests [0x3]).seq = .idle ∧
    ((serialReady 7).setRequests [0x3]).requests = ((parallelReady 7 [.high, .low]).setRequests [0x3]).requests ∧
    run 13 ((serialReady 7).setRequests [0x3]) =
      .next { serialReady 0 with trace := [.tx 0x0D, .delay .gap, .delay (.settle .clear)] } ∧
    run 9 ((parallelReady 7 [.high, .low]).setRequests [0x3]) =
      .next { parallelReady 0 [] with
        transport := .parallel parallelConfig (.parked 0x0D)
        trace := parallelTransfer 1 0x0D ++ [.delay (.settle .clear)] } ∧
    Finished { serialReady 0 with trace := [.tx 0x0D, .delay .gap, .delay (.settle .clear)] } ∧
    Finished { parallelReady 0 [] with
      transport := .parallel parallelConfig (.parked 0x0D)
      trace := parallelTransfer 1 0x0D ++ [.delay (.settle .clear)] } :=
  ⟨⟨Nat.le_of_ble_eq_true rfl, trivial, ⟨rfl, rfl⟩⟩, ⟨Nat.le_of_ble_eq_true rfl, trivial, rfl⟩, rfl, rfl, rfl, rfl, rfl,
    ⟨rfl, rfl⟩, ⟨rfl, rfl⟩⟩
theorem witness_BaudDivisorIsTheNearestInteger : (TransportConfig.serial serialConfig).wellFormed = true := by decide
theorem witness_StrobeCallsThePlatform :
    (phaseState .drive (.parked 0) []).transport = .parallel parallelConfig (.parked 0) ∧
    (phaseState .drive (.parked 0) []).seq = .run (.txByteParallel 0x41) 0 .drive ∧
    byteAt (.txByteParallel 0x41) 0 = some 0x41 := by decide
theorem witness_UnusedPortsHaveNoEffect : 0x1#4 ∈ [0x0#4, 0x1#4, 0x3#4, 0x4#4, 0x9#4, 0xB#4, 0xC#4, 0xD#4] ∧
    0x7#4 ∈ [0x2#4, 0x5#4, 0x6#4, 0x7#4] := by decide
theorem witness_WireOpcodesAndPayloads : (3#8).toNat ≤ 3 := by decide
theorem witness_UnusedPackedBitsAreZero : 4 < 5 := by decide
end Sys2Proof.Machine.Tests
end

section
/-! Proofs about the data lines (`spec/20_memory.md` R32): the `DRIVE` phase, and what the latch it writes shows on each
line. -/
namespace Sys2Proof.Machine

/-- A running Parallel operation in `DRIVE` does row `DRIVE` of R14's table. -/
theorem step_drive {s : State} {c : ParallelConfig} {l : Latches} {op : Instr} {bi : Nat} {v : Byte}
    (htr : s.transport = .parallel c l) (hseq : s.seq = .run op bi .drive) (hbyte : byteAt op bi = some v) :
    step s = .next (phaseDrive c l op bi v s) := by
  rw [step_running hseq, sequence_of_byte hbyte]
  simp [runPhase, htr]

/-- `DRIVE` writes the byte into `D` and leaves the other latches as they were. -/
@[simp] theorem phaseDrive_transport (c : ParallelConfig) (l : Latches) (op : Instr) (bi : Nat) (v : Byte) (s : State) :
    (phaseDrive c l op bi v s).transport = .parallel c { l with d := .drives v } := by
  simp [phaseDrive]

/-- The lines of a driven `D` carry its bits (R32). -/
theorem Latches.dataLine_of_drives {l : Latches} {v : Byte} (h : l.d = .drives v) (i : Nat) :
    l.dataLine i = .drives (if v.getLsbD i then .high else .low) := by
  simp [Latches.dataLine, h, lineOf, levelOfBool]

/-- Settles O34: `DRIVE` latches the byte into `D`, and each line shows its bit of the latch. -/
theorem dataLinesCarryTheByte : Obligations.DataLinesCarryTheByte := by
  intro s c l op bi v htr hseq hbyte
  exact ⟨phaseDrive c l op bi v s, { l with d := .drives v }, step_drive htr hseq hbyte,
    phaseDrive_transport c l op bi v s, fun i _ => Latches.dataLine_of_drives rfl i⟩

end Sys2Proof.Machine
end

section
/-! Proofs about runs of several steps: how runs compose, and one state reaching another. -/
namespace Sys2Proof.Machine

@[simp] theorem run_zero (s : State) : run 0 s = .next s := rfl

theorem run_succ_of_step {s t : State} (h : step s = .next t) (n : Nat) : run (n + 1) s = run n t := by
  simp [run, h]

theorem run_one (s : State) : run 1 s = step s := by
  cases h : step s <;> simp [run, h]

/-- A run goes on from where a shorter one ended. -/
theorem run_add {m : Nat} {s t : State} (h : run m s = .next t) (n : Nat) : run (m + n) s = run n t := by
  induction m generalizing s with
  | zero => cases h; simp
  | succ m ih =>
    cases hs : step s with
    | next u =>
      rw [run_succ_of_step hs] at h
      rw [Nat.succ_add, run_succ_of_step hs, ih h]
    | fault r => simp [run, hs] at h
    | refused r => simp [run, hs] at h

/-- Some number of steps from `s` ends in `t`. -/
def Reaches (s t : State) : Prop := ∃ n, run n s = .next t

theorem Reaches.of_run {n : Nat} {s t : State} (h : run n s = .next t) : Reaches s t := ⟨n, h⟩

theorem Reaches.of_step {s t : State} (h : step s = .next t) : Reaches s t := ⟨1, (run_one s).trans h⟩

theorem Reaches.trans {s t u : State} (hst : Reaches s t) (htu : Reaches t u) : Reaches s u := by
  obtain ⟨m, hm⟩ := hst
  obtain ⟨n, hn⟩ := htu
  exact ⟨m + n, (run_add hm n).trans hn⟩

end Sys2Proof.Machine
end

section
/-! Proofs about the phases of a parallel byte (`spec/40_transport.md` R72): the busy-wait, then the five steps of the
strobe. -/
namespace Sys2Proof.Machine

/-- A running operation whose byte `bi` is `v` does its phase. -/
theorem step_of_phase {s : State} {op : Instr} {bi : Nat} {ph : Phase} {v : Byte} (hseq : s.seq = .run op bi ph)
    (hbyte : byteAt op bi = some v) : step s = runPhase op bi ph v s :=
  (step_running hseq).trans (sequence_of_byte hbyte)

section

variable {s : State} {c : ParallelConfig} {l : Latches} {op : Instr} {bi : Nat} {v : Byte}

theorem step_wait (htr : s.transport = .parallel c l) (hseq : s.seq = .run op bi .wait) (hbyte : byteAt op bi = some v) :
    step s = .next (phaseWait c op bi s) := by
  simp [step_of_phase hseq hbyte, runPhase, htr]

theorem step_selOn (htr : s.transport = .parallel c l) (hseq : s.seq = .run op bi .selOn)
    (hbyte : byteAt op bi = some v) : step s = .next (phaseSelOn c l op bi s) := by
  simp [step_of_phase hseq hbyte, runPhase, htr]

theorem step_wrLo (htr : s.transport = .parallel c l) (hseq : s.seq = .run op bi .wrLo)
    (hbyte : byteAt op bi = some v) : step s = .next (phaseWrLo c l op bi s) := by
  simp [step_of_phase hseq hbyte, runPhase, htr]

theorem step_wrHi (htr : s.transport = .parallel c l) (hseq : s.seq = .run op bi .wrHi)
    (hbyte : byteAt op bi = some v) : step s = .next (phaseWrHi c l op bi s) := by
  simp [step_of_phase hseq hbyte, runPhase, htr]

theorem step_selOff (htr : s.transport = .parallel c l) (hseq : s.seq = .run op bi .selOff)
    (hbyte : byteAt op bi = some v) : step s = .next (phaseSelOff c l op bi v s) := by
  simp [step_of_phase hseq hbyte, runPhase, htr]

/-- A poll that the module answers asserted stays in `WAIT`. -/
theorem phaseWait_of_asserted {ls : List Level} (hbusy : s.moduleBusy = c.busyActive :: ls) :
    phaseWait c op bi s =
      { s with moduleBusy := ls, trace := s.trace ++ [.busy .asserted, .delay .poll] } := by
  obtain ⟨hlevel, hdrop⟩ := State.sample_listed hbusy
  simp [phaseWait, State.busyAnswer, State.busyRead, State.delay, State.emit, hlevel, hdrop]

/-- A poll that the module answers deasserted goes on to `DRIVE`. -/
theorem phaseWait_of_deasserted {ls : List Level} (hbusy : s.moduleBusy = opposite c.busyActive :: ls) :
    phaseWait c op bi s =
      { s with seq := .run op bi .drive, moduleBusy := ls, trace := s.trace ++ [.busy .deasserted] } := by
  obtain ⟨hlevel, hdrop⟩ := State.sample_listed hbusy
  simp [phaseWait, State.busyAnswer, State.busyRead, State.setSeq, State.emit, hlevel, hdrop]

/-- `k` polls answered asserted: nothing but the trace and the module's list changes (R76). -/
theorem run_asserted_polls (htr : s.transport = .parallel c l) (hseq : s.seq = .run op bi .wait)
    (hbyte : byteAt op bi = some v) {k : Nat} {rest : List Level}
    (hbusy : s.moduleBusy = List.replicate k c.busyActive ++ rest) :
    run k s = .next { s with
      moduleBusy := rest
      trace := s.trace ++ (List.replicate k [Event.busy .asserted, Event.delay .poll]).flatten } := by
  induction k generalizing s with
  | zero => simp [← show s.moduleBusy = rest by simpa using hbusy]
  | succ k ih =>
    have hpoll := (step_wait htr hseq hbyte).trans (congrArg _ (phaseWait_of_asserted hbusy))
    rw [run_succ_of_step hpoll]
    refine Eq.trans (ih htr hseq rfl) ?_
    simp [List.replicate_succ]

/-- A busy-wait: `k` polls answered asserted, then one answered deasserted, and the byte is driven. -/
theorem reaches_drive (htr : s.transport = .parallel c l) (hseq : s.seq = .run op bi .wait)
    (hbyte : byteAt op bi = some v) {k : Nat} {rest : List Level}
    (hbusy : s.moduleBusy = List.replicate k c.busyActive ++ opposite c.busyActive :: rest) :
    Reaches s { s with
      seq := .run op bi .drive
      moduleBusy := rest
      trace := s.trace ++ (List.replicate k [Event.busy .asserted, Event.delay .poll]).flatten ++
        [.busy .deasserted] } := by
  refine (Reaches.of_run (run_asserted_polls htr hseq hbyte hbusy)).trans (Reaches.of_step ?_)
  refine Eq.trans (step_wait htr hseq hbyte) ?_
  rw [phaseWait_of_deasserted rfl]

/-- The five phases from `DRIVE` to `SEL_OFF` (R72). -/
theorem run_strobe (htr : s.transport = .parallel c l) (hseq : s.seq = .run op bi .drive)
    (hbyte : byteAt op bi = some v) :
    run 5 s = .next (afterByte op bi { s with
      seq := .run op bi .selOff
      transport := .parallel c { Latches.parked v with busyInput := l.busyInput }
      trace := s.trace ++ strobe v }) := by
  rw [run_succ_of_step (step_drive htr hseq hbyte), run_succ_of_step (step_selOn rfl rfl hbyte),
    run_succ_of_step (step_wrLo rfl rfl hbyte), run_succ_of_step (step_wrHi rfl rfl hbyte),
    run_succ_of_step (step_selOff rfl rfl hbyte)]
  simp [phaseSelOff, phaseWrHi, phaseWrLo, phaseSelOn, phaseDrive, State.driveData, State.driveSel, State.driveWr,
    State.setTransport, State.setSeq, State.delay, State.emit, strobe, Latches.parked]

end

end Sys2Proof.Machine
end

section
/-! Proofs about a serial byte (`spec/40_transport.md` R71, R77, R78): the reference periods of a bit time, the bit times of
a frame, and what the shift register holds after them. -/
namespace Sys2Proof.Machine

theorem shifted_succ (w : List Level) (k : Nat) : shifted w (k + 1) = shiftMark (shifted w k) :=
  Function.iterate_succ_apply' shiftMark k w

/-- After `k` shifts the register holds the bits still to send, then `k` marks. -/
theorem shifted_eq_drop_append (w : List Level) {k : Nat} (hk : k ≤ w.length) :
    shifted w k = w.drop k ++ List.replicate k .high := by
  induction k with
  | zero => simp [shifted]
  | succ k ih =>
    have hne : w.drop k ≠ [] := by simpa using hk
    rw [shifted_succ, ih (by omega), shiftMark, List.tail_append_of_ne_nil hne, List.tail_drop, List.append_assoc,
      List.replicate_succ']

/-- When its whole frame has been shifted out the register holds marks only. -/
theorem shifted_frameBits (f : SerialFrame) (v : Byte) :
    shifted (frameBits f v) (frameLength f) = List.replicate (frameLength f) .high := by
  rw [shifted_eq_drop_append _ (by simp), ← frameBits_length f v]
  simp

@[simp] theorem headLevel_replicate_high (n : Nat) : headLevel (List.replicate n .high) = .high := by
  cases n <;> rfl

section

variable {s : State} {c : SerialConfig} {tx : SerialTx} {op : Instr} {bi left : Nat} {v : Byte}

theorem step_send (htr : s.transport = .serial c tx) (hseq : s.seq = .run op bi .send) (hbyte : byteAt op bi = some v) :
    step s = .next (phaseSend c op bi v s) := by
  simp [step_of_phase hseq hbyte, runPhase, htr]

theorem step_shift (htr : s.transport = .serial c tx) (hseq : s.seq = .run op bi (.shift left))
    (hbyte : byteAt op bi = some v) : step s = .next (phaseShift c tx op bi left s) := by
  simp [step_of_phase hseq hbyte, runPhase, htr]

/-- While `BAUDCNT` lasts, a reference period only counts it down. -/
theorem run_counting (htr : s.transport = .serial c tx) (hseq : s.seq = .run op bi (.shift left))
    (hbyte : byteAt op bi = some v) {m : Nat} (hm : m ≤ tx.baudcnt) :
    run m s = .next (s.setTransport (.serial c { tx with baudcnt := tx.baudcnt - m })) := by
  induction m with
  | zero => simp [State.setTransport, ← htr]
  | succ m ih =>
    have hcnt : tx.baudcnt - m ≠ 0 := by omega
    rw [run_add (ih (by omega)), run_one]
    refine Eq.trans (step_shift rfl hseq hbyte) ?_
    simp [phaseShift, hcnt, SerialTx.tick_counts, State.setTransport, Nat.sub_sub]

/-- The reference period in which a bit time ends. -/
theorem phaseShift_of_baudcnt_zero (hcnt : tx.baudcnt = 0) :
    phaseShift c tx op bi left s =
      if 1 < left then
        (s.setTransport (.serial c (.loaded c (shiftMark tx.txsr)))).setSeq (.run op bi (.shift (left - 1)))
      else afterByte op bi ((s.setTransport (.serial c (.loaded c (shiftMark tx.txsr)))).delay .gap) := by
  simp [phaseShift, hcnt, SerialTx.tick_shifts hcnt]

/-- A whole bit time: `DIV` reference periods, the last of which shifts. -/
theorem run_bitTime {w : List Level} (htr : s.transport = .serial c (.loaded c w))
    (hseq : s.seq = .run op bi (.shift left)) (hbyte : byteAt op bi = some v) :
    run (baudDiv c) s = .next (
      if 1 < left then (s.setTransport (.serial c (.loaded c (shiftMark w)))).setSeq (.run op bi (.shift (left - 1)))
      else afterByte op bi ((s.setTransport (.serial c (.loaded c (shiftMark w)))).delay .gap)) := by
  have hcounted := run_counting htr hseq hbyte (m := baudDiv c - 1) (by simp)
  have hlast := step_shift (s := s.setTransport (.serial c { SerialTx.loaded c w with baudcnt := 0 })) rfl hseq hbyte
  calc run (baudDiv c) s
      = run (baudDiv c - 1 + 1) s := by rw [Nat.sub_add_cancel (one_le_baudDiv c)]
    _ = step (s.setTransport (.serial c { SerialTx.loaded c w with baudcnt := 0 })) := by
        rw [run_add hcounted, run_one]; simp
    _ = _ := by rw [hlast, phaseShift_of_baudcnt_zero rfl]; rfl

/-- Inside a frame: after `j` bit times the register has shifted `j` times, and `left - j` bits are left. -/
theorem run_bitTimes {w : List Level} (htr : s.transport = .serial c (.loaded c w))
    (hseq : s.seq = .run op bi (.shift left)) (hbyte : byteAt op bi = some v) {j : Nat} (hj : j < left) :
    run (j * baudDiv c) s =
      .next ((s.setTransport (.serial c (.loaded c (shifted w j)))).setSeq (.run op bi (.shift (left - j)))) := by
  induction j with
  | zero => simp [shifted, State.setTransport, State.setSeq, ← htr, ← hseq]
  | succ j ih =>
    rw [Nat.succ_mul, run_add (ih (by omega)), run_bitTime rfl rfl hbyte, if_pos (by omega), shifted_succ]
    rfl

/-- All the bit times of a frame; the last one ends the byte with the gap (R71). -/
theorem run_frame {w : List Level} (htr : s.transport = .serial c (.loaded c w))
    (hseq : s.seq = .run op bi (.shift left)) (hbyte : byteAt op bi = some v) (hleft : 1 ≤ left) :
    run (left * baudDiv c) s =
      .next (afterByte op bi (((s.setTransport (.serial c (.loaded c (shifted w left)))).setSeq
        (.run op bi (.shift 1))).delay .gap)) := by
  obtain ⟨j, rfl⟩ : ∃ j, left = j + 1 := ⟨left - 1, by omega⟩
  rw [Nat.succ_mul, run_add (run_bitTimes htr hseq hbyte (Nat.lt_succ_self j)), run_bitTime rfl rfl hbyte,
    if_neg (by omega), shifted_succ]
  simp [State.setTransport, State.setSeq]

/-- A serial byte from `SEND` to its end: one step, then the bit times of its frame. -/
theorem run_serialByte (htr : s.transport = .serial c tx) (hseq : s.seq = .run op bi .send)
    (hbyte : byteAt op bi = some v) :
    run (1 + frameLength c.frame * baudDiv c) s =
      .next (afterByte op bi { s with
        seq := .run op bi (.shift 1)
        transport := .serial c (.loaded c (List.replicate (frameLength c.frame) .high))
        trace := s.trace ++ serialTransfer v }) := by
  have hleft : 1 ≤ frameLength c.frame := le_trans (by omega) (eight_le_frameLength c.frame)
  have hsent := (run_one s).trans (step_send htr hseq hbyte)
  rw [run_add hsent, run_frame rfl rfl hbyte hleft, shifted_frameBits]
  simp [phaseSend, State.setTransport, State.setSeq, State.delay, State.emit, serialTransfer]

end

end Sys2Proof.Machine
end

section
/-! Proofs about a whole transfer, on either transport (`TxByte`, `spec/40_transport.md` R70 to R72). -/
namespace Sys2Proof.Machine

/-- The transport after the transfer of `v`, at rest: `D` holds `v` on Parallel; on Serial the register holds marks. -/
def Transport.sent : Transport → Byte → Transport
  | .serial c _, _ => .serial c (.loaded c (List.replicate (frameLength c.frame) .high))
  | .parallel c l, v => .parallel c { Latches.parked v with busyInput := l.busyInput }

section

variable (x : Transport) (v w : Byte) (k : Nat) (ks : List Nat) (bs : List Byte)

/-- Of the bytes sent, only the last one shows on the lines. -/
@[simp] theorem Transport.sent_sent : (x.sent v).sent w = x.sent w := by cases x <;> rfl

@[simp] theorem Transport.sent_configuration : (x.sent v).configuration = x.configuration := by cases x <;> rfl

@[simp] theorem Transport.sent_firstPhase : (x.sent v).firstPhase = x.firstPhase := by cases x <;> rfl

@[simp] theorem transfersTrace_sent : transfersTrace (x.sent v) ks bs = transfersTrace x ks bs := by cases x <;> rfl

@[simp] theorem moduleAnswers_sent : moduleAnswers (x.sent v) ks = moduleAnswers x ks := by cases x <;> rfl

/-- The trace of several bytes: that of the first, then that of the others. -/
theorem transfersTrace_cons :
    transfersTrace x (k :: ks) (v :: bs) = transfersTrace x [k] [v] ++ transfersTrace x ks bs := by
  cases x <;> simp [transfersTrace]

@[simp] theorem moduleAnswers_nil : moduleAnswers x [] = [] := by cases x <;> rfl

/-- The module's answers for several bytes: those for the first, then those for the others. -/
theorem moduleAnswers_cons : moduleAnswers x (k :: ks) = moduleAnswers x [k] ++ moduleAnswers x ks := by
  cases x <;> simp [moduleAnswers]

end

@[simp] theorem byteStream_polls (k : Nat) :
    byteStream (List.replicate k [Event.busy .asserted, Event.delay .poll]).flatten = [] := by
  induction k with
  | zero => rfl
  | succ k ih => simp [List.replicate_succ, ih, Event.txByte]

/-- A transfer hands its one byte to the medium (R70). -/
theorem byteStream_transfersTrace_one (x : Transport) (k : Nat) (v : Byte) :
    byteStream (transfersTrace x [k] [v]) = [v] := by
  cases x with
  | serial c tx => rfl
  | parallel c l => simp [transfersTrace, parallelTransfer, strobe, Event.txByte]

/-- The transfers of an operation hand its bytes to the medium, in order. -/
theorem byteStream_transfersTrace (x : Transport) {ks : List Nat} {bs : List Byte} (hlen : ks.length = bs.length) :
    byteStream (transfersTrace x ks bs) = bs := by
  induction bs generalizing ks with
  | nil => cases x <;> simp [transfersTrace, List.length_eq_zero_iff.mp hlen]
  | cons v bs ih =>
    obtain ⟨k, ks, rfl⟩ := List.exists_cons_of_length_eq_add_one hlen
    rw [transfersTrace_cons, byteStream_append, byteStream_transfersTrace_one, ih (by simpa using hlen)]
    rfl

/-- The state after the transfer of `v` whose busy-wait reads asserted `k` times, `SEQ` left out. -/
def State.transferred (s : State) (k : Nat) (v : Byte) (rest : List Level) : State :=
  { s with
    transport := s.transport.sent v
    trace := s.trace ++ transfersTrace s.transport [k] [v]
    moduleBusy := rest }

/-- `afterByte` overwrites `SEQ`, whatever it was. -/
theorem afterByte_setSeq (op : Instr) (bi : Nat) (s : State) (q : SeqState) :
    afterByte op bi (s.setSeq q) = afterByte op bi s := by
  simp only [afterByte, State.setSeq_transport]
  split <;> rfl

/-- A byte from its first phase to its end, on either transport, the module answering asserted `k` times. -/
theorem reaches_transferred {s : State} {op : Instr} {bi k : Nat} {v : Byte} {rest : List Level}
    (hseq : s.seq = .run op bi s.transport.firstPhase) (hbyte : byteAt op bi = some v)
    (hbusy : s.moduleBusy = moduleAnswers s.transport [k] ++ rest) :
    Reaches s (afterByte op bi (s.transferred k v rest)) := by
  cases htr : s.transport with
  | serial c tx =>
    rw [htr] at hseq hbusy
    have hbyteRun := Reaches.of_run (run_serialByte htr hseq hbyte)
    convert hbyteRun using 1
    rw [← afterByte_setSeq op bi _ (.run op bi (.shift 1))]
    simp_all [State.transferred, State.setSeq, Transport.sent, transfersTrace, moduleAnswers]
  | parallel c l =>
    rw [htr] at hseq hbusy
    simp only [moduleAnswers, List.flatMap_cons, List.flatMap_nil, List.append_nil, List.append_assoc,
      List.singleton_append] at hbusy
    have hbyteRun := (reaches_drive htr hseq hbyte hbusy).trans (Reaches.of_run (run_strobe htr rfl hbyte))
    convert hbyteRun using 1
    rw [← afterByte_setSeq op bi _ (.run op bi .selOff)]
    simp [State.transferred, State.setSeq, htr, Transport.sent, transfersTrace, parallelTransfer]

end Sys2Proof.Machine
end

section
/-! Proofs about an operation from issue to return (`spec/10_state.md` R14; `spec/41_protocol_encoder.md` R99, R100): its
bytes in order, its settle delay, and the lines at rest when it has returned. -/
namespace Sys2Proof.Machine

/-- The bytes of an operation from byte `bi` on, then `SETTLE`, with `bi` at the last index. -/
theorem reaches_settle {op : Instr} {bs : List Byte} (hne : bs ≠ []) {ks : List Nat} (hlen : ks.length = bs.length)
    {s : State} {bi : Nat} {rest : List Level} (hbytes : (wireBytes op).drop bi = bs)
    (hseq : s.seq = .run op bi s.transport.firstPhase) (hbusy : s.moduleBusy = moduleAnswers s.transport ks ++ rest) :
    Reaches s { s with
      seq := .run op ((wireBytes op).length - 1) .settle
      transport := s.transport.sent (bs.getLast hne)
      trace := s.trace ++ transfersTrace s.transport ks bs
      moduleBusy := rest } := by
  induction bs generalizing ks s bi with
  | nil => exact absurd rfl hne
  | cons v bs ih =>
    obtain ⟨k, ks, rfl⟩ := List.exists_cons_of_length_eq_add_one hlen
    have hcount : (wireBytes op).length - bi = bs.length + 1 := by
      rw [← List.length_drop, hbytes, List.length_cons]
    have hbyte : byteAt op bi = some v := by
      rw [byteAt, ← List.head?_drop, hbytes, List.head?_cons]
    have hrest : (wireBytes op).drop (bi + 1) = bs := by
      rw [← List.tail_drop, hbytes, List.tail_cons]
    rw [moduleAnswers_cons, List.append_assoc] at hbusy
    have hfirst := reaches_transferred hseq hbyte hbusy
    rcases afterByte_eq op bi (s.transferred k v (moduleAnswers s.transport ks ++ rest)) with
      ⟨hmore, hnext⟩ | ⟨hlast, hnext⟩
    · rw [hnext] at hfirst
      have hne' : bs ≠ [] := by
        rintro rfl
        simp at hcount
        omega
      refine hfirst.trans ?_
      convert ih hne' (by simpa using hlen) hrest ?_ ?_ using 1
      · simp [State.transferred, State.setSeq, List.getLast_cons hne', transfersTrace_cons _ v k ks bs]
      · rfl
      · simp [State.transferred]
    · rw [hnext] at hfirst
      obtain rfl : bs = [] := List.length_eq_zero_iff.mp (by omega)
      obtain rfl : ks = [] := List.length_eq_zero_iff.mp (by simpa using hlen)
      convert hfirst using 1
      simp [State.transferred, State.setSeq, show (wireBytes op).length - 1 = bi by omega]

/-- `SETTLE`: the settle delay, if the operation has one, and the operation returns. -/
theorem step_settle {s : State} {op : Instr} {bi : Nat} {v : Byte} (hseq : s.seq = .run op bi .settle)
    (hbyte : byteAt op bi = some v) :
    step s = .next { s with
      seq := .idle
      trace := s.trace ++ (settleOf op).toList.map (fun o => .delay (.settle o)) } := by
  have hphase : step s = .next (phaseSettle op s) := by
    rw [step_of_phase hseq hbyte]
    cases htr : s.transport <;> simp [runPhase, htr]
  rw [hphase, phaseSettle]
  cases settleOf op <;> simp [State.delay, State.emit, State.setSeq]

/-- An operation from its first byte to its return. -/
theorem reaches_idle {s : State} {op : Instr} (hne : wireBytes op ≠ []) {ks : List Nat}
    (hlen : ks.length = (wireBytes op).length) {rest : List Level} (hseq : s.seq = .run op 0 s.transport.firstPhase)
    (hbusy : s.moduleBusy = moduleAnswers s.transport ks ++ rest) :
    Reaches s { s with
      seq := .idle
      transport := s.transport.sent ((wireBytes op).getLast hne)
      trace := s.trace ++ operationTrace s.transport ks (wireBytes op) (settleOf op)
      moduleBusy := rest } := by
  have hsettle := reaches_settle hne hlen (List.drop_zero ..) hseq hbusy
  have hbyte : byteAt op ((wireBytes op).length - 1) = some ((wireBytes op).getLast hne) := by
    rw [byteAt, ← List.getLast?_eq_getElem?, List.getLast?_eq_some_getLast hne]
  convert hsettle.trans (Reaches.of_step (step_settle rfl hbyte)) using 1
  simp [operationTrace]

/-- A settle delay hands no byte to the medium. -/
@[simp] theorem byteStream_settle (o : Option SettleOp) :
    byteStream (o.toList.map (fun o => Event.delay (.settle o))) = [] := by
  cases o <;> rfl

theorem lastByte_operationTrace (tr : List Event) (x : Transport) {ks : List Nat} {bs : List Byte} (hne : bs ≠ [])
    (hlen : ks.length = bs.length) (o : Option SettleOp) :
    lastByte (tr ++ operationTrace x ks bs o) = bs.getLast hne := by
  simp [lastByte, operationTrace, byteStream_transfersTrace x hlen, List.getLast?_append,
    List.getLast?_eq_some_getLast hne]

/-- After a transfer of the last byte sent, the lines of a ready machine are at rest again. -/
theorem linesOk_of_sent {s t : State} (hs : Ready s) (hseq : t.seq = .idle) (hen : t.en = true)
    (htr : t.transport = s.transport.sent (lastByte t.trace)) : LinesOk t := by
  have hlines := hs.inv.lines
  cases hx : s.transport with
  | serial c tx => simp [LinesOk, htr, hx, Transport.sent, hen, hseq, txIn]
  | parallel c l =>
    have hinput : l = .parked (lastByte s.trace) := by
      simpa [LinesOk, hx, hs.en, hs.idle, latchesIn, eq_comm] using hlines
    simp [LinesOk, htr, hx, Transport.sent, hen, hseq, latchesIn, hinput, Latches.parked]

/-- An instruction that, at a ready state, is issued as an operation with at least one byte performs that operation. -/
theorem performs_of_issue {i op : Instr} {s : State} {p : Pos} (hs : Ready s) (hexec : exec i s = issue op p s)
    (hp : p.toNat ≤ 39) (hne : wireBytes op ≠ []) : Performs i op s p (wireBytes op) (settleOf op) := by
  refine ⟨hexec.trans (issue_ready hs.idle hs.en), fun ks rest hlen hbusy => ?_⟩
  obtain ⟨n, hrun⟩ := reaches_idle (s := (s.setPos p).setSeq (.run op 0 s.transport.firstPhase)) hne hlen rfl hbusy
  refine ⟨n, _, hrun, ?_⟩
  constructor
  case config => exact Transport.sent_configuration ..
  case inv =>
    refine ⟨hp, trivial, linesOk_of_sent hs rfl hs.en ?_⟩
    exact congrArg s.transport.sent (lastByte_operationTrace _ _ hne hlen _).symm
  all_goals rfl

end Sys2Proof.Machine
end

section
/-! Proofs about the operands of the encoder (`spec/41_protocol_encoder.md` R93, R94; `spec/42_cursor_and_facade.md` R110,
R111, R114): positions and mode bytes. -/
namespace Sys2Proof.Machine

theorem retreat_toNat (p : Pos) : (retreat p).toNat = if 0 < p.toNat then p.toNat - 1 else 39 := by
  unfold retreat
  split
  · simp; omega
  · rfl

theorem advance_toNat (p : Pos) : (advance p).toNat = (p.toNat + 1) % 40 := by
  simp [advance]; omega

/-- `ClampPos` of a byte is the low six bits of the byte, or of 0 where it is above 39 (R114). -/
theorem clampPos_eq_setWidth (p : Byte) : clampPos p = (if 39 < p.toNat then 0 else p : Byte).setWidth 6 := by
  unfold clampPos
  split
  · rfl
  · exact BitVec.ofNat_toNat 6 p

theorem clampPos_le (p : Byte) : (clampPos p).toNat ≤ 39 := by
  unfold clampPos
  split
  · decide
  · simp; omega

/-- The position sent is the byte given, or 0 where it is above 39 (R94). -/
theorem posByte_clampPos (p : Byte) : posByte (clampPos p) = if 39 < p.toNat then 0 else p := by
  unfold clampPos
  split
  · rfl
  · refine BitVec.eq_of_toNat_eq ?_
    simp [posByte]
    omega

/-- A position in range is sent as it is. -/
theorem clampPos_posByte {p : Pos} (hp : p.toNat ≤ 39) : clampPos (posByte p) = p := by
  have hbyte : (posByte p).toNat = p.toNat := by simp [posByte]; omega
  simp [clampPos, hbyte, hp]

/-- A mode selector above 2 has no mode byte (R93). -/
theorem modeByte_of_reserved {sel : Byte} (hsel : 2 < sel.toNat) : modeByte sel = none := by
  obtain ⟨n, hn⟩ : ∃ n, sel.toNat = n + 3 := ⟨sel.toNat - 3, by omega⟩
  simp [modeByte, hn]

end Sys2Proof.Machine
end

section
/-! Proofs about `setCursorMode`, whose operand decides whether it is issued (`spec/41_protocol_encoder.md` R93). -/
namespace Sys2Proof.Machine

/-- At a ready state `setCursorMode` is issued where the selector has a mode byte. -/
theorem execSetCursorMode_of_modeByte {s : State} (hs : Ready s) {sel m : Byte} (hm : modeByte sel = some m) :
    exec (.setCursorMode sel) s = issue (.setCursorMode sel) s.pos s := by
  simp [exec, execSetCursorMode, admission_ready hs.idle hs.en, hm]

/-- At a ready state a reserved mode selector is refused (R93). -/
theorem execSetCursorMode_of_reserved {s : State} (hs : Ready s) {sel : Byte} (hsel : 2 < sel.toNat) :
    exec (.setCursorMode sel) s = .refused (.reservedMode sel) := by
  simp [exec, execSetCursorMode, admission_ready hs.idle hs.en, modeByte_of_reserved hsel]

/-- A selector with mode byte `m` performs the two bytes of `setCursorMode`. -/
theorem performs_setCursorMode {s : State} (hs : Ready s) {sel m : Byte} (hm : modeByte sel = some m) :
    Performs (.setCursorMode sel) (.setCursorMode sel) s s.pos [0x17, m] (some .setCursorMode) := by
  have hbytes : wireBytes (.setCursorMode sel) = [0x17, m] := by simp [wireBytes, hm]
  rw [← hbytes]
  exact performs_of_issue hs (execSetCursorMode_of_modeByte hs hm) hs.inv.pos (by simp [hbytes])

end Sys2Proof.Machine
end

section
/-! The obligations about the operations of the protocol encoder (`spec/41_protocol_encoder.md` R90 to R94, R96 to R98). Each
is the issue of the operation at the right cursor position, and then `performs_of_issue`. -/
namespace Sys2Proof.Machine

/-- Settles O12: `clear` is issued with `POS` at 0. -/
theorem clearSendsItsByte : Obligations.ClearSendsItsByte :=
  ⟨fun w hw => by simp [decode, hw],
    fun _ hs => performs_of_issue hs rfl (by decide) (List.cons_ne_nil _ _)⟩

/-- Settles O13: `reset` is issued with `POS` at 0. -/
theorem resetSendsItsByte : Obligations.ResetSendsItsByte :=
  ⟨fun w hw => by simp [decode, hw],
    fun _ hs => performs_of_issue hs rfl (by decide) (List.cons_ne_nil _ _)⟩

/-- Settles O14: `setBrightness` is issued with `POS` and the level as they are. -/
theorem setBrightnessSendsTheLevel : Obligations.SetBrightnessSendsTheLevel :=
  ⟨fun w hw => by simp [decode, hw],
    fun _ _ hs => performs_of_issue hs rfl hs.inv.pos (List.cons_ne_nil _ _)⟩

/-- Settles O15: the selectors 0, 1, 2 have the mode bytes 0x00, 0xFF, 0x88, and no other has one. -/
theorem setCursorModeSendsTheModeByte : Obligations.SetCursorModeSendsTheModeByte :=
  ⟨fun w hw => by simp [decode, hw],
    fun _ hs => ⟨performs_setCursorMode hs rfl, performs_setCursorMode hs rfl, performs_setCursorMode hs rfl,
      fun _ hsel => execSetCursorMode_of_reserved hs hsel⟩⟩

/-- Settles O16: the clamped position is stored, latched and sent. -/
theorem setCursorPositionStoresAndSends : Obligations.SetCursorPositionStoresAndSends := by
  refine ⟨fun w hw => by simp [decode, hw], ?_⟩
  rintro s p q hs rfl
  rw [← clampPos_eq_setWidth, ← posByte_clampPos]
  have hperforms := performs_of_issue (i := .setCursorPosition p) hs rfl (clampPos_le p) (List.cons_ne_nil _ _)
  rwa [wireBytes, clampPos_posByte (clampPos_le p)] at hperforms

/-- Settles O18: `backspace` is issued with `POS` one back. -/
theorem backspaceRetreats : Obligations.BackspaceRetreats := by
  refine ⟨fun w hw => by simp [decode, hw], fun s hs => ⟨retreat s.pos, retreat_toNat s.pos, ?_⟩⟩
  have hp : (retreat s.pos).toNat ≤ 39 := by
    have hpos : s.pos.toNat ≤ 39 := hs.inv.pos
    rw [retreat_toNat]
    split <;> omega
  exact performs_of_issue hs rfl hp (List.cons_ne_nil _ _)

/-- Settles O19: `horizontalTab` is issued with `POS` one forward. -/
theorem horizontalTabAdvances : Obligations.HorizontalTabAdvances := by
  refine ⟨fun w hw => by simp [decode, hw], fun s hs => ⟨advance s.pos, advance_toNat s.pos, ?_⟩⟩
  have hp : (advance s.pos).toNat ≤ 39 := by
    rw [advance_toNat]
    omega
  exact performs_of_issue hs rfl hp (List.cons_ne_nil _ _)

/-- Settles O20: `allDisplayOn` is issued with `POS` as it is. -/
theorem allDisplayOnSendsItsByte : Obligations.AllDisplayOnSendsItsByte :=
  ⟨fun w hw => by simp [decode, hw],
    fun _ hs => performs_of_issue hs rfl hs.inv.pos (List.cons_ne_nil _ _)⟩

end Sys2Proof.Machine
end

section
/-! Proofs about the cursor primitives as the operations use them (`spec/42_cursor_and_facade.md` R110, R112): an operation
issued at a ready state stores the position it is issued with, and `print` is presented as one `write` for each byte. -/
namespace Sys2Proof.Machine

/-- `Advance` as "one more, and 0 past 39", the form R110 is written in. -/
theorem advance_toNat_of_le {p : Pos} (hp : p.toNat ≤ 39) :
    (advance p).toNat = if p.toNat = 39 then 0 else p.toNat + 1 := by
  rw [advance_toNat]
  split <;> omega

/-- An operation issued at a ready state leaves `POS` at the position it is issued with. -/
theorem issue_stores_pos {s : State} (hs : Ready s) (op : Instr) (p : Pos) :
    ∃ t, issue op p s = .next t ∧ t.pos = p :=
  ⟨_, issue_ready hs.idle hs.en, rfl⟩

/-- The word of `write` is read back as `write` of the same byte. -/
theorem decode_encodeH1_write (b : Byte) : decode (encodeH1 0x2 b) = .write b := by
  simp [decode, encodeH1]

/-- The words of `print` are read as one `write` for each byte, in order (R121). -/
theorem map_decode_encode_print (bs : List Byte) : (encode (.print bs)).map decode = bs.map .write := by
  rw [encode, List.map_map]
  exact List.map_congr_left fun b _ => decode_encodeH1_write b

/-- Settles O9: `advance` in both forms of R110, and `write`, `horizontalTab` are issued with `POS` advanced once. -/
theorem advanceWrapsAtForty : Obligations.AdvanceWrapsAtForty :=
  ⟨fun p hp => ⟨advance_toNat p, advance_toNat_of_le hp⟩,
    fun s b hs => issue_stores_pos hs (.write b) (advance s.pos),
    fun s hs => issue_stores_pos hs .horizontalTab (advance s.pos),
    map_decode_encode_print⟩

/-- Settles O11: `clear`, `reset` and `home` are issued with `POS` at `Home`, which is 0. -/
theorem homeOperationsForceZero : Obligations.HomeOperationsForceZero := by
  refine ⟨rfl, fun s hs i hi => ?_⟩
  have hissued : exec i s = issue i homePos s := by
    simp only [List.mem_cons, List.not_mem_nil, or_false] at hi
    obtain rfl | rfl | rfl := hi <;> rfl
  rw [hissued]
  exact issue_stores_pos hs i homePos

end Sys2Proof.Machine
end

section
/-! Proofs about the glyph packer (`spec/43_glyph_packer.md` R131, R133, R134): each packed bit by its cell number, the
table by its cell number, and the unused bits of the last byte. -/
namespace Sys2Proof.Machine

/-- Bit `7 - n` of `Pj` is cell `8j + n` (R133); from cell 35 on the bitmap's own width makes it 0. -/
theorem pack_getLsbD (g : Glyph) {j n : Nat} (hj : j < 5) (hn : n < 8) :
    ((pack g).getD j 0).getLsbD (7 - n) = g.getLsbD (8 * j + n) := by
  have hbyte : (pack g).getD j 0 = wordByte (packWord g) j := by simp [pack, hj]
  have hword : 32 - 8 * j + (7 - n) = 39 - (8 * j + n) := by omega
  rw [hbyte, wordByte, BitVec.getLsbD_extractLsb', hword, packWord_getLsbD g _ (by omega),
    show 39 - (39 - (8 * j + n)) = 8 * j + n by omega]
  by_cases hk : 8 * j + n < 35
  · simp [show 7 - n < 8 by omega, show 5 ≤ 39 - (8 * j + n) by omega]
  · simp [BitVec.getLsbD_of_ge g _ (by omega : 35 ≤ 8 * j + n)]

/-- The closed form of the table (R133): entry `n` of row `j` is cell number `8j + n`, taken row by row, and the last five
entries name no cell. -/
theorem packTable_closedForm : ∀ j < 5, ∀ n < 8, (packTable.getD j []).getD n none =
    if 8 * j + n < 35 then some ((8 * j + n) % 5 + 1, (8 * j + n) / 5 + 1) else none := by
  decide

/-- Column `k mod 5 + 1` of row `k div 5 + 1` is cell number `k` (R130). -/
theorem cell_of_number (g : Glyph) (k : Nat) : cell g (k % 5 + 1) (k / 5 + 1) = g.getLsbD k := by
  rw [cell, Nat.add_sub_cancel, Nat.add_sub_cancel, Nat.div_add_mod]

/-- The table puts cell `8j + n` in bit `7 - n` of `Pj`. -/
theorem tableBit_eq_getLsbD (g : Glyph) {j n : Nat} (hj : j < 5) (hn : n < 8) :
    tableBit g j n = g.getLsbD (8 * j + n) := by
  rw [tableBit, packTable_closedForm j hj n hn]
  by_cases hk : 8 * j + n < 35
  · simp [hk, cell_of_number]
  · simp [hk, BitVec.getLsbD_of_ge g _ (by omega : 35 ≤ 8 * j + n)]

/-- Settles O6: the packed bit and the table's bit are the same cell `8j + n`. -/
theorem packFollowsTheCellTable : Obligations.PackFollowsTheCellTable :=
  fun g => ⟨pack_length g, fun _ _ hj hn => (pack_getLsbD g hj hn).trans (tableBit_eq_getLsbD g hj hn).symm⟩

/-- Bit `b` of `P4` below 5 would be cell `39 - b`, past the last cell 34. -/
theorem pack_unused_bits (g : Glyph) {b : Nat} (hb : b < 5) : ((pack g).getD 4 0).getLsbD b = false := by
  have hbit := pack_getLsbD g (j := 4) (n := 7 - b) (by omega) (by omega)
  rw [show 7 - (7 - b) = b by omega] at hbit
  rw [hbit, BitVec.getLsbD_of_ge g _ (by omega)]

/-- A byte whose five low bits are 0 is its three high bits followed by five zeros. -/
theorem eq_append_zero_of_low_bits {v : Byte} (hlow : ∀ b < 5, v.getLsbD b = false) :
    v = v.extractLsb' 5 3 ++ 0#5 := by
  refine BitVec.eq_of_getLsbD_eq fun i hi => ?_
  rw [BitVec.getLsbD_append]
  by_cases h5 : i < 5
  · simp [h5, hlow i h5]
  · simp [h5, show i - 5 < 3 by omega, show 5 + (i - 5) = i by omega]

/-- The eight bytes of three bits followed by five zeros (R134). -/
theorem append_zero_mem (t : BitVec 3) :
    t ++ 0#5 ∈ [0x00#8, 0x20#8, 0x40#8, 0x60#8, 0x80#8, 0xA0#8, 0xC0#8, 0xE0#8] := by
  revert t
  decide

/-- Settles O7: the five low bits of `P4` carry no cell, so only its three high bits are free. -/
theorem unusedPackedBitsAreZero : Obligations.UnusedPackedBitsAreZero := by
  intro g
  have hlow : ∀ b < 5, ((pack g).getD 4 0).getLsbD b = false := fun _ hb => pack_unused_bits g hb
  refine ⟨hlow, ?_⟩
  rw [eq_append_zero_of_low_bits hlow]
  exact append_zero_mem _

end Sys2Proof.Machine
end

section
/-! Proofs about the host-side encoding (`spec/30_encoding.md` R51, R52): what the decoder reads from a word put together
from its four signals. -/
namespace Sys2Proof.Machine

/-- Settles O2: each selector is read back as its row, with the operands of its format; `print` is one `write` a byte. -/
theorem decodeOfEncodeGivesTheInstruction : Obligations.DecodeOfEncodeGivesTheInstruction := by
  intro i
  cases i with
  | print bs => exact map_decode_encode_print bs
  | begin | isBusy | clear | reset | home | backspace | horizontalTab | allDisplayOn | reservedE | reservedF =>
    simp [encode, encodeH0, decode, Instr.issuedAs]
  | write | setBrightness | setCursorMode | setCursorPosition => simp [encode, encodeH1, decode, Instr.issuedAs]
  | setCursor row col => simp [encode, encodeH2, decode, Instr.issuedAs]
  | defineCustomChar slot g => simp [encode, encodeHG, decode, Instr.issuedAs]
  | txByteSerial | txByteParallel => rfl

/-- Settles O1: each word is evaluated; its fields are the selector and the operands written out. -/
theorem sampleWordsDecode : Obligations.SampleWordsDecode := by
  unfold Obligations.SampleWordsDecode
  decide

/-- Settles O3: the decoder reads an operand port only in the arms whose format latches it. -/
theorem unusedPortsHaveNoEffect : Obligations.UnusedPortsHaveNoEffect := by
  refine ⟨fun op hop a b g a' b' g' => ?_, fun op hop a b g b' g' => ?_, fun a b g g' => ?_, fun a b g b' => ?_⟩
  · simp only [List.mem_cons, List.not_mem_nil, or_false] at hop
    obtain rfl | rfl | rfl | rfl | rfl | rfl | rfl | rfl := hop <;> simp [decode]
  · simp only [List.mem_cons, List.not_mem_nil, or_false] at hop
    obtain rfl | rfl | rfl | rfl := hop <;> simp [decode]
  · simp [decode]
  · simp [decode]

end Sys2Proof.Machine
end

section
/-! Proofs about the wire encoding (`spec/30_encoding.md` R54 to R57): opcodes, payload bytes and the length of a wire
sequence. -/
namespace Sys2Proof.Machine

/-- The byte sent for a position has the position's value. -/
@[simp] theorem posByte_toNat (p : Pos) : (posByte p).toNat = p.toNat := by
  simp [posByte]; omega

theorem clampRow_le (row : Byte) : (clampRow row).toNat ≤ 1 := by
  unfold clampRow
  split
  · assumption
  · decide

theorem clampCol_le (col : Byte) : (clampCol col).toNat ≤ 19 := by
  unfold clampCol
  split
  · assumption
  · decide

/-- `Resolve` does not wrap in the six bits of `POS` (R115). -/
theorem resolve_toNat (row col : Byte) : (resolve row col).toNat = 20 * (clampRow row).toNat + (clampCol col).toNat := by
  have hrow := clampRow_le row
  have hcol := clampCol_le col
  simp [resolve]
  omega

theorem resolve_le (row col : Byte) : (resolve row col).toNat ≤ 39 := by
  have hrow := clampRow_le row
  have hcol := clampCol_le col
  rw [resolve_toNat]
  omega

/-- A slot of 0 to 3 sends its seven bytes (R95). -/
theorem wireBytes_defineCustomChar {slot : Byte} (hslot : slot.toNat ≤ 3) (g : Glyph) :
    wireBytes (.defineCustomChar slot g) = 0x03 :: (0x1B + slot) :: pack g := by
  simp [wireBytes, slotOutOfRange, slotByte, hslot]

/-- A mode selector that is not reserved has a mode byte (R93). -/
theorem modeByte_of_legal {sel : Byte} (hsel : sel.toNat ≤ 2) : ∃ m, modeByte sel = some m := by
  unfold modeByte
  interval_cases sel.toNat <;> exact ⟨_, rfl⟩

/-- Settles O4: the sequences are written out in `wireBytes`, and `clampPos`, `resolve` keep a position in range. -/
theorem wireOpcodesAndPayloads : Obligations.WireOpcodesAndPayloads :=
  ⟨rfl, rfl, rfl, rfl, rfl, fun _ => rfl, rfl, rfl, rfl,
    fun p => ⟨posByte (clampPos p), (posByte_toNat _).trans_le (clampPos_le p), rfl⟩,
    fun row col => ⟨posByte (resolve row col), (posByte_toNat _).trans_le (resolve_le row col), rfl⟩,
    rfl, fun _ g hslot => ⟨pack_length g, wireBytes_defineCustomChar hslot g⟩⟩

/-- Settles O5: an operation with a settle delay sends an opcode of R54, and its length is the one R57 lists. -/
theorem wireLengthIsToldByTheOpcode : Obligations.WireLengthIsToldByTheOpcode := by
  intro i hwf hsettle
  cases i with
  | setCursorMode sel =>
    obtain ⟨m, hm⟩ := modeByte_of_legal (sel := sel) (by simpa [Instr.wellFormed] using hwf)
    exact ⟨0x17, [m], by simp [wireBytes, hm], by simp [wireBytes, hm, wireLength]⟩
  | defineCustomChar slot g =>
    have hslot : slot.toNat ≤ 3 := by
      by_contra hout
      simp [settleOf, slotOutOfRange, show 3 < slot.toNat by omega] at hsettle
    exact ⟨0x03, _, wireBytes_defineCustomChar hslot g, by simp [wireBytes_defineCustomChar hslot g, wireLength]⟩
  | clear | reset | setBrightness | setCursorPosition | setCursor | home | backspace | horizontalTab | allDisplayOn =>
    exact ⟨_, _, rfl, rfl⟩
  | begin | isBusy | write | reservedE | reservedF | print | txByteSerial | txByteParallel => cases hsettle

end Sys2Proof.Machine
end

section
/-! Proofs about `Unpack` and the image of `Pack` (`spec/43_glyph_packer.md` R135). -/
namespace Sys2Proof.Machine

/-- The loop of `unpack` over any list of cells, `f k` the bit read for cell `k`. -/
theorem unpackLoop_getLsbD (f : Nat → Bool) (ks : List Nat) (g : Glyph) {i : Nat} (hi : i < 35) :
    (ks.foldl (fun g k => if f k then g ||| (1#35 <<< k) else g) g).getLsbD i =
      (g.getLsbD i || ks.any (fun k => f k && decide (i = k))) := by
  induction ks generalizing g with
  | nil => simp
  | cons k ks ih =>
    have hbit : (1#35 <<< k).getLsbD i = decide (i = k) := by
      simp only [BitVec.getLsbD_shiftLeft, hi, decide_true, Bool.true_and, BitVec.getLsbD_one]
      by_cases h : i = k
      · simp [h]
      · simp [h]; omega
    rw [List.foldl_cons, ih]
    cases hk : f k
    · simp [hk]
    · simp [hk, hbit, Bool.or_assoc]

/-- Cell `k` of `Unpack` is bit `7 - (k mod 8)` of `P[k div 8]` (R135). -/
theorem unpack_getLsbD (ps : List Byte) {k : Nat} (hk : k < 35) :
    (unpack ps).getLsbD k = (ps.getD (k / 8) 0).getLsbD (7 - k % 8) := by
  rw [unpack, unpackLoop_getLsbD _ _ _ hk, Bool.eq_iff_iff]
  simp only [BitVec.getLsbD_zero, Bool.false_or, List.any_eq_true, List.mem_range, Bool.and_eq_true, decide_eq_true_eq]
  constructor
  · rintro ⟨_, _, hbit, rfl⟩
    exact hbit
  · exact fun hbit => ⟨k, hk, hbit, rfl⟩

theorem unpack_pack (g : Glyph) : unpack (pack g) = g := by
  refine BitVec.eq_of_getLsbD_eq fun k hk => ?_
  rw [unpack_getLsbD _ hk, pack_getLsbD g (by omega) (by omega), Nat.div_add_mod]

/-- Five bytes with the unused bits 0 are packed from the bitmap they unpack to. -/
theorem pack_unpack {ps : List Byte} (hlen : ps.length = 5) (hunused : ∀ b < 5, (ps.getD 4 0).getLsbD b = false) :
    pack (unpack ps) = ps := by
  refine List.ext_getElem (by simp [hlen]) fun j hj _ => BitVec.eq_of_getLsbD_eq fun i hi => ?_
  rw [pack_length] at hj
  have hbit := pack_getLsbD (unpack ps) hj (n := 7 - i) (by omega)
  rw [show 7 - (7 - i) = i by omega, List.getD_eq_getElem _ _ (by simpa using hj)] at hbit
  rw [hbit, ← List.getD_eq_getElem ps 0 (by omega)]
  by_cases hk : 8 * j + (7 - i) < 35
  · rw [unpack_getLsbD ps hk, show (8 * j + (7 - i)) / 8 = j by omega, show 7 - (8 * j + (7 - i)) % 8 = i by omega]
  · obtain rfl : j = 4 := by omega
    rw [BitVec.getLsbD_of_ge _ _ (by omega), hunused i (by omega)]

/-- Settles O8: `unpack` is a left inverse of `pack`, and a right inverse where the unused bits are 0. -/
theorem unpackInvertsPack : Obligations.UnpackInvertsPack := by
  refine ⟨fun ps k hk => unpack_getLsbD ps hk, unpack_pack, Function.LeftInverse.injective unpack_pack,
    fun ps hlen => ⟨?_, fun hunused => ⟨unpack ps, pack_unpack hlen hunused⟩⟩⟩
  rintro ⟨g, rfl⟩ b hb
  exact pack_unused_bits g hb

end Sys2Proof.Machine
end

section
/-! Proofs about repeated cursor moves (`spec/42_cursor_and_facade.md` R110, R111). -/
namespace Sys2Proof.Machine

/-- `Retreat` as subtraction modulo 40. -/
theorem retreat_toNat_mod {p : Pos} (hp : p.toNat ≤ 39) : (retreat p).toNat = (p.toNat + 39) % 40 := by
  rw [retreat_toNat]
  split <;> omega

theorem advance_iterate_toNat {p : Pos} (hp : p.toNat ≤ 39) (n : Nat) :
    (Nat.iterate advance n p).toNat = (p.toNat + n) % 40 := by
  induction n with
  | zero => simp; omega
  | succ n ih =>
    rw [Function.iterate_succ_apply', advance_toNat, ih]
    omega

theorem retreat_iterate_toNat {p : Pos} (hp : p.toNat ≤ 39) (n : Nat) :
    (Nat.iterate retreat n p).toNat = (p.toNat + 40 - n % 40) % 40 := by
  induction n with
  | zero => simp; omega
  | succ n ih =>
    rw [Function.iterate_succ_apply', retreat_toNat_mod (by omega), ih]
    omega

/-- Settles O10: both moves are addition modulo 40, of 1 and of 39. -/
theorem cursorArithmeticLaws : Obligations.CursorArithmeticLaws := by
  intro p hp
  refine ⟨BitVec.eq_of_toNat_eq ?_, BitVec.eq_of_toNat_eq ?_,
    fun n => ⟨advance_iterate_toNat hp n, retreat_iterate_toNat hp n⟩⟩
  · rw [retreat_toNat, advance_toNat]
    split <;> omega
  · rw [advance_toNat, retreat_toNat_mod hp]
    omega

end Sys2Proof.Machine
end

section
/-! The obligations about the operations of the façade, the glyph operation and `TxByte`
(`spec/42_cursor_and_facade.md` R118 to R120, `spec/41_protocol_encoder.md` R95, `spec/40_transport.md` R70 to R72), each by
`performs_of_issue`. -/
namespace Sys2Proof.Machine

theorem advance_le (p : Pos) : (advance p).toNat ≤ 39 := by
  rw [advance_toNat]
  omega

/-- At a ready state `write` performs the byte itself, with `POS` advanced once. -/
theorem performs_write {s : State} (hs : Ready s) (b : Byte) :
    Performs (.write b) (.write b) s (advance s.pos) [b] none :=
  performs_of_issue hs rfl (advance_le s.pos) (List.cons_ne_nil _ _)

/-- Settles O21: `write` is issued with `POS` one forward. -/
theorem writeSendsTheByteAndAdvances : Obligations.WriteSendsTheByteAndAdvances :=
  ⟨fun w hw => by simp [decode, hw], fun s b hs => ⟨advance s.pos, advance_toNat s.pos, performs_write hs b⟩⟩

/-- Clamped operands are clamped to themselves, so they resolve to the same position. -/
@[simp] theorem resolve_clamped (row col : Byte) : resolve (clampRow row) (clampCol col) = resolve row col := by
  refine BitVec.eq_of_toNat_eq ?_
  rw [resolve_toNat, resolve_toNat, clampRow.eq_1 (clampRow row), if_pos (clampRow_le row), clampCol.eq_1 (clampCol col),
    if_pos (clampCol_le col)]

/-- The position of `Resolve` as the byte sent. -/
theorem posByte_resolve (row col : Byte) : posByte (resolve row col) = 20 * clampRow row + clampCol col := by
  have hrow := clampRow_le row
  have hcol := clampCol_le col
  refine BitVec.eq_of_toNat_eq ?_
  rw [posByte_toNat, resolve_toNat]
  simp [BitVec.toNat_add, BitVec.toNat_mul]
  omega

/-- Settles O22: `setCursor` is issued with `POS` at `Resolve`, and the clamped operands it latches resolve alike. -/
theorem setCursorResolvesRowAndColumn : Obligations.SetCursorResolvesRowAndColumn := by
  refine ⟨fun w hw => by simp [decode, hw], ?_⟩
  rintro s row col _ _ hs rfl rfl
  refine ⟨resolve row col, resolve_toNat row col, ?_⟩
  have hperforms := performs_of_issue (i := .setCursor row col) (op := .setCursor (clampRow row) (clampCol col)) hs rfl
    (resolve_le row col) (List.cons_ne_nil _ _)
  rwa [wireBytes, resolve_clamped, posByte_resolve] at hperforms

/-- Settles O23: `home` is issued with `POS` at 0, which is also the position sent. -/
theorem homeSendsPositionZero : Obligations.HomeSendsPositionZero :=
  ⟨fun w hw => by simp [decode, hw],
    fun _ hs => performs_of_issue hs rfl (by decide) (List.cons_ne_nil _ _)⟩

/-- At a ready state a slot of 0 to 3 is issued, with `POS` as it is (R95). -/
theorem execDefineCustomChar_of_slot {s : State} (hs : Ready s) {slot : Byte} (hslot : slot.toNat ≤ 3) (g : Glyph) :
    exec (.defineCustomChar slot g) s = issue (.defineCustomChar slot g) s.pos s := by
  simp [exec, execDefineCustomChar, admission_ready hs.idle hs.en, slotOutOfRange, hslot]

/-- Settles O17: a slot of 0 to 3 is issued and sends its seven bytes; another one changes nothing. -/
theorem defineCustomCharSendsTheGlyph : Obligations.DefineCustomCharSendsTheGlyph := by
  refine ⟨fun w hw => by simp [decode, hw], fun s slot g hs hslot => ?_, fun s slot g hs hslot => ?_⟩
  · have hbytes := wireBytes_defineCustomChar hslot g
    have hsettle : settleOf (.defineCustomChar slot g) = some .defineCustomChar := by
      simp [settleOf, slotOutOfRange, hslot]
    rw [← hbytes, ← hsettle]
    exact performs_of_issue hs (execDefineCustomChar_of_slot hs hslot g) hs.inv.pos (by simp [hbytes])
  · simp [exec, execDefineCustomChar, admission_ready hs.idle hs.en, slotOutOfRange, hslot]

/-- What the decoder gives is an instruction with a selector of its own: neither `print` nor `TxByte`. -/
theorem decode_issuedAs (w : PortWord) : (decode w).issuedAs = [decode w] := by
  unfold decode
  split <;> rfl

/-- Settles O27: each variant is issued on its transport and refused on the other, and no word decodes to it. -/
theorem txByteTransfersOneByte : Obligations.TxByteTransfersOneByte := by
  refine ⟨fun s v c tx hs htr => ⟨?_, by simp [exec, execTxByteParallel, htr]⟩,
    fun s v c l hs htr => ⟨?_, by simp [exec, execTxByteSerial, htr]⟩, fun w v => ⟨?_, ?_⟩⟩
  · exact performs_of_issue hs (by simp [exec, execTxByteSerial, htr]) hs.inv.pos (List.cons_ne_nil _ _)
  · exact performs_of_issue hs (by simp [exec, execTxByteParallel, htr]) hs.inv.pos (List.cons_ne_nil _ _)
  all_goals
    intro hw
    have hself := decode_issuedAs w
    simp [hw, Instr.issuedAs] at hself

end Sys2Proof.Machine
end

section
/-! Proofs about `print` (`spec/42_cursor_and_facade.md` R121): its writes one after the other, each from issue to
return. -/
namespace Sys2Proof.Machine

/-- What the host has still to issue is no part of what makes a machine ready. -/
theorem Ready.setRequests {s : State} (hs : Ready s) (ws : List PortWord) : Ready (s.setRequests ws) :=
  ⟨⟨hs.inv.pos, hs.inv.seq, hs.inv.lines⟩, hs.en, hs.idle⟩

section

variable {s t u : State} {p q : Pos} {tr tr' : List Event} {rest rest' : List Level}

/-- A returned operation leaves a ready machine ready. -/
theorem Returned.ready (h : Returned s t p tr rest) (hs : Ready s) : Ready t := ⟨h.inv, h.en.trans hs.en, h.seq⟩

theorem Returned.refl (hs : Ready s) : Returned s s s.pos [] s.moduleBusy := by
  constructor
  case seq => exact hs.idle
  case trace => exact (List.append_nil _).symm
  case inv => exact hs.inv
  all_goals rfl

/-- Two operations in a row. -/
theorem Returned.trans (h : Returned s t p tr rest) (h' : Returned t u q tr' rest') :
    Returned s u q (tr ++ tr') rest' where
  seq := h'.seq
  pos := h'.pos
  trace := by rw [h'.trace, h.trace, List.append_assoc]
  moduleBusy := h'.moduleBusy
  config := h'.config.trans h.config
  en := h'.en.trans h.en
  busyQ := h'.busyQ.trans h.busyQ
  busyQValid := h'.busyQValid.trans h.busyQValid
  requests := h'.requests.trans h.requests
  draws := h'.draws.trans h.draws
  inv := h'.inv

/-- An operation returns alike whatever the host has still to issue. -/
theorem Returned.setRequests (h : Returned s t p tr rest) (ws : List PortWord) :
    Returned (s.setRequests ws) (t.setRequests ws) p tr rest :=
  { h with requests := rfl, inv := ⟨h.inv.pos, h.inv.seq, h.inv.lines⟩ }

end

/-- The trace of transfers depends on the configuration of the transport only. -/
theorem transfersTrace_congr {x y : Transport} (h : x.configuration = y.configuration) (ks : List Nat)
    (bs : List Byte) : transfersTrace x ks bs = transfersTrace y ks bs := by
  cases x <;> cases y <;> simp_all [Transport.configuration, transfersTrace]

theorem moduleAnswers_congr {x y : Transport} (h : x.configuration = y.configuration) (ks : List Nat) :
    moduleAnswers x ks = moduleAnswers y ks := by
  cases x <;> cases y <;> simp_all [Transport.configuration, moduleAnswers]

/-- Without a settle delay the trace of an operation is that of its bytes. -/
theorem operationTrace_none (x : Transport) (ks : List Nat) (bs : List Byte) :
    operationTrace x ks bs none = transfersTrace x ks bs := List.append_nil _

/-- A ready machine with the writes of `bs` on its port issues them in order, each to its return. -/
theorem writes_return (bs : List Byte) {s : State} (hs : Ready s) {ws : List PortWord}
    (hreq : s.requests = bs.map (encodeH1 0x2) ++ ws) {ks : List Nat} (hlen : ks.length = bs.length) {rest : List Level}
    (hbusy : s.moduleBusy = moduleAnswers s.transport ks ++ rest) :
    ∃ n t, run n s = .next t ∧
      Returned (s.setRequests ws) t (Nat.iterate advance bs.length s.pos) (transfersTrace s.transport ks bs) rest := by
  induction bs generalizing s ks with
  | nil =>
    obtain rfl : ks = [] := List.length_eq_zero_iff.mp hlen
    have hws : s.setRequests ws = s := by rw [show ws = s.requests from hreq.symm]; rfl
    have hrest : s.moduleBusy = rest := by simpa using hbusy
    have hnone : transfersTrace s.transport [] [] = [] := by cases s.transport <;> rfl
    refine ⟨0, s, rfl, ?_⟩
    rw [hws, hnone, ← hrest]
    exact Returned.refl hs
  | cons b bs ih =>
    obtain ⟨k, ks, rfl⟩ := List.exists_cons_of_length_eq_add_one hlen
    rw [moduleAnswers_cons, List.append_assoc] at hbusy
    have hs' : Ready (s.takeRequest (bs.map (encodeH1 0x2) ++ ws)) := hs.setRequests _
    have hissue := step_issuing hs.idle hreq
    rw [decode_encodeH1_write] at hissue
    obtain ⟨hnext, hreturns⟩ := performs_write hs' b
    obtain ⟨m, t, hrun, hfirst⟩ := hreturns [k] _ rfl hbusy
    have hconfig : t.transport.configuration = s.transport.configuration := hfirst.config
    obtain ⟨n, u, hrun', hothers⟩ := ih (hfirst.ready hs') hfirst.requests (ks := ks) (by simpa using hlen)
      (by rw [hfirst.moduleBusy, moduleAnswers_congr hconfig])
    refine ⟨m + n + 1, u, ?_, ?_⟩
    · rw [run_succ_of_step (hissue.trans hnext), run_add hrun, hrun']
    · have hboth := (hfirst.setRequests ws).trans hothers
      rw [hfirst.pos, transfersTrace_congr hconfig, operationTrace_none] at hboth
      rw [transfersTrace_cons]
      exact hboth

/-- Settles O24: `print` puts its writes on the port, and they are performed one after the other. -/
theorem printWritesEachByteInOrder : Obligations.PrintWritesEachByteInOrder := by
  intro s bs hidle
  refine ⟨if_neg (not_not_intro hidle), fun hs ks rest hlen hbusy => ?_⟩
  obtain ⟨n, t, hrun, hreturned⟩ :=
    writes_return bs (hs.setRequests (bs.map (encodeH1 0x2) ++ s.requests)) rfl hlen hbusy
  refine ⟨n, t, _, hrun, advance_iterate_toNat hs.inv.pos _, ?_⟩
  rw [operationTrace_none]
  exact hreturned

end Sys2Proof.Machine
end

section
/-! What a step can do, said once: `exec` by the ways it can answer a next state, and the step by its three rows
(`spec/10_state.md` R14, R15). The invariants below are case analyses over these. -/
namespace Sys2Proof.Machine

/-- The ways an instruction takes a state to a next one: issued with at least one byte to send, or completed at once. -/
inductive Executes (s : State) : Instr → State → Prop
  | issued {i op : Instr} (hen : s.en = true) (hbytes : wireBytes op = wireBytes i) (hne : wireBytes op ≠ []) :
      Executes s i ((s.setPos (posEffect i s.pos)).setSeq (.run op 0 s.transport.firstPhase))
  | begun (hen : s.en = false) :
      Executes s .begin (((s.setTransport s.transport.started).emit s.transport.startEvent).setEn)
  | sampled {c : ParallelConfig} (hen : s.en = true) :
      Executes s .isBusy ((s.busyRead c).answerBusy (busyBit (s.busyAnswer c)))
  | unsampled (hen : s.en = true) : Executes s .isBusy (s.answerBusy false)
  | noGlyph {slot : Byte} {g : Glyph} (hout : slotOutOfRange slot = true) : Executes s (.defineCustomChar slot g) s
  | printed {bs : List Byte} : Executes s (.print bs) (s.setRequests (encode (.print bs) ++ s.requests))

/-- An issue is the first of the ways, where the operation has the bytes of the instruction and its effect on `POS`. -/
theorem executes_of_issue {i op : Instr} {p : Pos} {s t : State} (h : issue op p s = .next t)
    (hp : p = posEffect i s.pos) (hbytes : wireBytes op = wireBytes i) (hne : wireBytes op ≠ []) :
    s.seq = .idle ∧ Executes s i t := by
  obtain ⟨hidle, hen, rfl⟩ := issue_next_iff.mp h
  subst hp
  exact ⟨hidle, .issued hen hbytes hne⟩

theorem exec_cases {i : Instr} {s t : State} (h : exec i s = .next t) : s.seq = .idle ∧ Executes s i t := by
  cases i with
  | write | clear | reset | setBrightness | home | backspace | horizontalTab | allDisplayOn =>
    exact executes_of_issue h rfl rfl (List.cons_ne_nil _ _)
  | setCursorPosition p =>
    refine executes_of_issue h rfl ?_ (List.cons_ne_nil _ _)
    simp [wireBytes, clampPos_posByte (clampPos_le p)]
  | setCursor row col => exact executes_of_issue h rfl (by simp [wireBytes]) (List.cons_ne_nil _ _)
  | setCursorMode sel =>
    simp only [exec, execSetCursorMode] at h
    split at h
    · cases h
    · split at h
      · next m hm => exact executes_of_issue h rfl rfl (by simp [wireBytes, hm])
      · cases h
  | defineCustomChar slot g =>
    simp only [exec, execDefineCustomChar] at h
    split at h
    · cases h
    · next hadm =>
      split at h
      · next hout => cases h; exact ⟨(admission_none_iff.mp hadm).1, .noGlyph hout⟩
      · next hin => exact executes_of_issue h rfl rfl (by simp [wireBytes, hin])
  | begin =>
    simp only [exec, execBegin] at h
    split at h
    · cases h
    · next hidle =>
      split at h
      · cases h
      · next hen => cases h; exact ⟨not_not.mp hidle, .begun (by simpa using hen)⟩
  | isBusy =>
    simp only [exec, execIsBusy] at h
    split at h
    · cases h
    · next hadm =>
      obtain ⟨hidle, hen⟩ := admission_none_iff.mp hadm
      split at h <;> cases h
      · exact ⟨hidle, .sampled hen⟩
      · exact ⟨hidle, .unsampled hen⟩
  | print bs =>
    simp only [exec, execPrint] at h
    split at h
    · cases h
    · next hidle => cases h; exact ⟨not_not.mp hidle, .printed⟩
  | reservedE | reservedF => cases h
  | txByteSerial | txByteParallel =>
    simp only [exec, execTxByteSerial, execTxByteParallel] at h
    split at h
    · exact executes_of_issue h rfl rfl (List.cons_ne_nil _ _)
    · cases h

/-- A step waits, runs the instruction on the port, or does a phase of the running operation. -/
theorem step_cases {s t : State} (h : step s = .next t) :
    (s.seq = .idle ∧ t = s) ∨
    (∃ w rest, s.seq = .idle ∧ s.requests = w :: rest ∧ Executes (s.takeRequest rest) (decode w) t) ∨
    (∃ op bi ph, s.seq = .run op bi ph ∧ sequence op bi ph s = .next t) := by
  cases hseq : s.seq with
  | idle =>
    cases hreq : s.requests with
    | nil =>
      rw [step_waiting hseq hreq] at h
      cases h
      exact .inl ⟨rfl, rfl⟩
    | cons w rest =>
      rw [step_issuing hseq hreq] at h
      exact .inr (.inl ⟨w, rest, rfl, rfl, (exec_cases h).2⟩)
  | run op bi ph =>
    rw [step_running hseq] at h
    exact .inr (.inr ⟨op, bi, ph, rfl, h⟩)

/-- What every step keeps, a run keeps. -/
theorem run_induction {P : State → Prop} (hstep : ∀ s t, P s → step s = .next t → P t) {n : Nat} {s t : State}
    (hs : P s) (h : run n s = .next t) : P t := by
  induction n generalizing s with
  | zero => cases h; exact hs
  | succ n ih =>
    cases hfirst : step s with
    | next u => exact ih (hstep s u hs hfirst) ((run_succ_of_step hfirst n).symm.trans h)
    | fault r => simp [run, hfirst] at h
    | refused r => simp [run, hfirst] at h

end Sys2Proof.Machine
end

section
/-! Proofs about what a phase leaves unchanged (`spec/10_state.md` R16, R17; `spec/42_cursor_and_facade.md` section 2), put
together from a rule for each update a phase is made of. -/
namespace Sys2Proof.Machine

/-- `t` is `s` after updates that touch neither the registers nor the port nor the configuration, and only append to the
trace. -/
structure PhaseFrame (s t : State) : Prop where
  pos        : t.pos = s.pos
  en         : t.en = s.en
  busyQ      : t.busyQ = s.busyQ
  busyQValid : t.busyQValid = s.busyQValid
  requests   : t.requests = s.requests
  config     : t.transport.configuration = s.transport.configuration
  trace      : ∃ es, t.trace = s.trace ++ es

namespace PhaseFrame

theorem refl (s : State) : PhaseFrame s s := ⟨rfl, rfl, rfl, rfl, rfl, rfl, [], (List.append_nil _).symm⟩

variable {s t : State} (h : PhaseFrame s t)
include h

theorem setSeq (q : SeqState) : PhaseFrame s (t.setSeq q) := { h with }

theorem setTransport {x : Transport} (hx : x.configuration = t.transport.configuration) :
    PhaseFrame s (t.setTransport x) := { h with config := hx.trans h.config }

theorem emit (e : Event) : PhaseFrame s (t.emit e) := by
  obtain ⟨es, hes⟩ := h.trace
  exact { h with trace := ⟨es ++ [e], by simp [hes]⟩ }

theorem delay (d : DelayName) : PhaseFrame s (t.delay d) := h.emit _

theorem busyRead (c : ParallelConfig) : PhaseFrame s (t.busyRead c) := by
  obtain ⟨es, hes⟩ := h.trace
  constructor
  case trace => exact ⟨es ++ [.busy (t.busyAnswer c)], by simp [hes]⟩
  all_goals simp [h.pos, h.en, h.busyQ, h.busyQValid, h.requests, h.config]

theorem afterByte (op : Instr) (bi : Nat) : PhaseFrame s (afterByte op bi t) := by
  obtain ⟨-, hnext⟩ | ⟨-, hnext⟩ := afterByte_eq op bi t <;> rw [hnext] <;> exact h.setSeq _

end PhaseFrame

section

variable {s : State} {op : Instr} {bi : Nat} {v : Byte} {c : ParallelConfig} {l : Latches} {k : SerialConfig}
  {tx : SerialTx}

theorem phaseWait_frame : PhaseFrame s (phaseWait c op bi s) := by
  unfold phaseWait
  split
  · exact ((PhaseFrame.refl s).busyRead c).delay _
  · exact ((PhaseFrame.refl s).busyRead c).setSeq _

theorem phaseSelOff_frame (htr : s.transport = .parallel c l) : PhaseFrame s (phaseSelOff c l op bi v s) :=
  ((((PhaseFrame.refl s).setTransport (by rw [htr]; rfl)).emit _).emit _).afterByte op bi

theorem phaseShift_frame {left : Nat} (htr : s.transport = .serial k tx) :
    PhaseFrame s (phaseShift k tx op bi left s) := by
  have hticked : PhaseFrame s (s.setTransport (.serial k (tx.tick k))) :=
    (PhaseFrame.refl s).setTransport (by rw [htr]; rfl)
  unfold phaseShift
  split
  · exact hticked
  · split
    · exact hticked.setSeq _
    · exact (hticked.delay _).afterByte op bi

theorem phaseSettle_frame : PhaseFrame s (phaseSettle op s) := by
  unfold phaseSettle
  split
  · exact ((PhaseFrame.refl s).delay _).setSeq _
  · exact (PhaseFrame.refl s).setSeq _

/-- Every phase is made of updates that keep the registers. -/
theorem sequence_frame {ph : Phase} {t : State} (h : sequence op bi ph s = .next t) : PhaseFrame s t := by
  have hrefl := PhaseFrame.refl s
  obtain ⟨v, -, ⟨c, l, htr, hrow⟩ | ⟨c, tx, htr, hrow⟩⟩ := sequence_cases h
  · have hsame : ∀ l', (Transport.parallel c l').configuration = s.transport.configuration := fun _ => by rw [htr]; rfl
    obtain ⟨-, rfl⟩ | ⟨-, rfl⟩ | ⟨-, rfl⟩ | ⟨-, rfl⟩ | ⟨-, rfl⟩ | ⟨-, rfl⟩ | ⟨-, rfl⟩ := hrow
    · exact phaseWait_frame
    · exact ((hrefl.setTransport (hsame _)).emit _).setSeq _
    · exact ((hrefl.setTransport (hsame _)).emit _).setSeq _
    · exact (((hrefl.setTransport (hsame _)).emit _).delay _).setSeq _
    · exact (((hrefl.setTransport (hsame _)).emit _).delay _).setSeq _
    · exact phaseSelOff_frame htr
    · exact phaseSettle_frame
  · obtain ⟨-, rfl⟩ | ⟨left, -, rfl⟩ | ⟨-, rfl⟩ := hrow
    · exact ((hrefl.setTransport (by rw [htr]; rfl)).emit _).setSeq _
    · exact phaseShift_frame htr
    · exact phaseSettle_frame

end

/-- Settles O32: a step of a running operation is a phase. -/
theorem runningOperationKeepsTheRegisters : Obligations.RunningOperationKeepsTheRegisters := by
  intro s t op bi ph hseq hstep
  obtain ⟨hpos, hen, hbusyQ, hvalid, hreq, hconfig, -⟩ := sequence_frame ((step_running hseq).symm.trans hstep)
  exact ⟨hpos, hen, hbusyQ, hvalid, hreq, hconfig⟩

end Sys2Proof.Machine
end

section
/-! The obligations about what every step keeps, whatever the state: configuration, `EN`, `busy_q`, the trace and the range
of `POS`. -/
namespace Sys2Proof.Machine

@[simp] theorem Transport.started_configuration (x : Transport) : x.started.configuration = x.configuration := by
  cases x <;> rfl

theorem Transport.mode_congr {x y : Transport} (h : x.configuration = y.configuration) : x.mode = y.mode := by
  cases x <;> cases y <;> simp_all [Transport.configuration, Transport.mode]

/-- An instruction keeps the configuration, never clears `EN`, and only appends to the trace. -/
theorem executes_frame {i : Instr} {s t : State} (h : Executes s i t) :
    t.transport.configuration = s.transport.configuration ∧ (s.en = true → t.en = true) ∧
      ∃ es, t.trace = s.trace ++ es := by
  cases h with
  | issued => exact ⟨rfl, id, [], by simp⟩
  | begun => exact ⟨by simp, fun _ => rfl, _, rfl⟩
  | sampled => exact ⟨by simp, by simp, _, by simp; rfl⟩
  | unsampled => exact ⟨rfl, id, [], by simp⟩
  | noGlyph => exact ⟨rfl, id, [], by simp⟩
  | printed => exact ⟨rfl, id, [], by simp⟩

/-- The same of a step. -/
theorem step_frame {s t : State} (h : step s = .next t) :
    t.transport.configuration = s.transport.configuration ∧ (s.en = true → t.en = true) ∧
      ∃ es, t.trace = s.trace ++ es := by
  obtain ⟨-, rfl⟩ | ⟨w, rest, -, -, hexec⟩ | ⟨op, bi, ph, -, hphase⟩ := step_cases h
  · exact ⟨rfl, id, [], by simp⟩
  · exact (executes_frame hexec :)
  · have hframe := sequence_frame hphase
    exact ⟨hframe.config, hframe.en.trans, hframe.trace⟩

/-- Settles O45: the configuration is kept by every step, and the mode is part of it. -/
theorem instanceConstantsAreKept : Obligations.InstanceConstantsAreKept := by
  intro s t hstep
  obtain ⟨hconfig, hen, -⟩ := step_frame hstep
  exact ⟨hconfig, Transport.mode_congr hconfig, hen⟩

/-- Settles O47: every step appends to the trace. -/
theorem traceOnlyGrows : Obligations.TraceOnlyGrows := by
  intro s t hstep
  obtain ⟨-, -, hgrows⟩ := step_frame hstep
  exact hgrows

/-- An instruction other than `isBusy` keeps `busy_q` and its validity. -/
theorem executes_busyQ {i : Instr} {s t : State} (h : Executes s i t) (hi : i ≠ .isBusy) :
    t.busyQ = s.busyQ ∧ t.busyQValid = s.busyQValid := by
  cases h with
  | sampled | unsampled => exact absurd rfl hi
  | issued | begun | noGlyph | printed => exact ⟨rfl, rfl⟩

/-- A step that takes no `isBusy` from the port keeps `busy_q` and its validity. -/
theorem step_busyQ {s t : State} (h : step s = .next t)
    (hport : ∀ w rest, s.seq = .idle → s.requests = w :: rest → decode w ≠ .isBusy) :
    t.busyQ = s.busyQ ∧ t.busyQValid = s.busyQValid := by
  obtain ⟨-, rfl⟩ | ⟨w, rest, hidle, hreq, hexec⟩ | ⟨op, bi, ph, -, hphase⟩ := step_cases h
  · exact ⟨rfl, rfl⟩
  · exact (executes_busyQ hexec (hport w rest hidle hreq) :)
  · have hframe := sequence_frame hphase
    exact ⟨hframe.busyQ, hframe.busyQValid⟩

/-- Settles O46: a step that takes no `isBusy` changes neither. -/
theorem onlyIsBusyChangesBusyQ : Obligations.OnlyIsBusyChangesBusyQ := by
  intro s t hstep hchanged
  by_contra hnone
  have hkept := step_busyQ hstep fun w rest hidle hreq hw => hnone ⟨hidle, w, rest, hreq, hw⟩
  simp [hkept] at hchanged

/-- No row of the table of R50 takes `POS` out of range (R23). -/
theorem posEffect_le (i : Instr) {p : Pos} (hp : p.toNat ≤ 39) : (posEffect i p).toNat ≤ 39 := by
  cases i with
  | write | horizontalTab => exact advance_le p
  | clear | reset | home => exact Nat.zero_le 39
  | setCursorPosition q => exact clampPos_le q
  | setCursor row col => exact resolve_le row col
  | backspace =>
    rw [posEffect, retreat_toNat_mod hp]
    omega
  | print bs =>
    rw [posEffect, advance_iterate_toNat hp]
    omega
  | begin | isBusy | setBrightness | setCursorMode | defineCustomChar | allDisplayOn | reservedE | reservedF
  | txByteSerial | txByteParallel => exact hp

/-- An instruction does to `POS` what its row of the table of R50 says; the writes of `print` are still to come. -/
theorem executes_pos {i : Instr} {s t : State} (h : Executes s i t) :
    t.pos = posEffect i s.pos ∨ (∃ bs, i = .print bs) ∧ t.pos = s.pos := by
  cases h with
  | issued | begun | unsampled | noGlyph => exact .inl rfl
  | sampled => exact .inl (by simp [posEffect])
  | printed => exact .inr ⟨⟨_, rfl⟩, rfl⟩

theorem executes_posOk {i : Instr} {s t : State} (h : Executes s i t) (hs : PosOk s) : PosOk t := by
  obtain hpos | ⟨-, hpos⟩ := executes_pos h <;> rw [PosOk, hpos]
  · exact posEffect_le i hs
  · exact hs

/-- Settles O42: `POS` changes at issue only, and then as its row of the table says. -/
theorem stepKeepsThePositionInRange : Obligations.StepKeepsThePositionInRange := by
  intro s t hs hstep
  obtain ⟨-, rfl⟩ | ⟨w, rest, -, -, hexec⟩ | ⟨op, bi, ph, -, hphase⟩ := step_cases hstep
  · exact hs
  · exact executes_posOk hexec hs
  · rw [PosOk, (sequence_frame hphase).pos]
    exact hs

end Sys2Proof.Machine
end

section
/-! Proofs about the lines of the invariant (`spec/40_transport.md` R72, R77, R80): where the phase is between two bytes,
`LinesOk` says that the lines are at rest. -/
namespace Sys2Proof.Machine

/-- The lines between transfers: `D` the last byte sent and the others at rest on Parallel, marks on Serial. -/
def AtRest (s : State) : Prop :=
  match s.transport with
  | .parallel _ l => l = .parked (lastByte s.trace)
  | .serial c tx => tx.txd = .drives .high ∧ tx.txsr = List.replicate (frameLength c.frame) .high

/-- The phases of a transport in which no transfer has begun or the last one has ended. -/
def restPhases : Transport → List Phase
  | .parallel _ _ => [.wait, .drive, .settle]
  | .serial _ _ => [.send, .settle]

section

variable {s : State} {op : Instr} {bi : Nat} {ph : Phase} {v : Byte}

theorem linesOk_idle_iff (hen : s.en = true) (hidle : s.seq = .idle) : LinesOk s ↔ AtRest s := by
  cases htr : s.transport <;> simp [LinesOk, AtRest, htr, hen, hidle, latchesIn, txIn, eq_comm]

theorem linesOk_rest_iff (hen : s.en = true) (hseq : s.seq = .run op bi ph) (hbyte : byteAt op bi = some v)
    (hph : ph ∈ restPhases s.transport) : LinesOk s ↔ AtRest s := by
  cases htr : s.transport with
  | parallel c l =>
    simp only [htr, restPhases, List.mem_cons, List.not_mem_nil, or_false] at hph
    obtain rfl | rfl | rfl := hph <;> simp [LinesOk, AtRest, htr, hen, hseq, latchesIn, hbyte, eq_comm]
  | serial c tx =>
    simp only [htr, restPhases, List.mem_cons, List.not_mem_nil, or_false] at hph
    obtain rfl | rfl := hph <;> simp [LinesOk, AtRest, htr, hen, hseq, txIn]

theorem linesOk_parallel_iff {c : ParallelConfig} {l : Latches} (hen : s.en = true) (htr : s.transport = .parallel c l) :
    LinesOk s ↔ latchesIn s.seq s.trace = some l := by
  simp [LinesOk, htr, hen]

theorem linesOk_serial_iff {c : SerialConfig} {tx : SerialTx} (hen : s.en = true) (htr : s.transport = .serial c tx) :
    LinesOk s ↔ txIn c s.seq tx := by
  simp [LinesOk, htr, hen]

end

/-- Lines at rest stay so where neither they nor the bytes sent change. -/
theorem AtRest.of_eq {s t : State} (hs : AtRest s) (htr : t.transport = s.transport)
    (hlast : lastByte t.trace = lastByte s.trace) : AtRest t := by
  rw [AtRest, htr, hlast]
  exact hs

theorem firstPhase_mem_restPhases (x : Transport) : x.firstPhase ∈ restPhases x := by
  cases x <;> simp [restPhases, Transport.firstPhase]

theorem settle_mem_restPhases (x : Transport) : .settle ∈ restPhases x := by
  cases x <;> simp [restPhases]

theorem firstPhase_ne_settle (x : Transport) : x.firstPhase ≠ .settle := by
  cases x <;> simp [Transport.firstPhase]

/-- The phases between two bytes are rows of the transport's part of R14's table. -/
theorem phaseFits_of_restPhases {x : Transport} {ph : Phase} (hph : ph ∈ restPhases x) : phaseFits x ph = true := by
  cases x <;> simp only [restPhases, List.mem_cons, List.not_mem_nil, or_false] at hph
  · obtain rfl | rfl := hph <;> rfl
  · obtain rfl | rfl | rfl := hph <;> rfl

end Sys2Proof.Machine
end

section
/-! Proofs that an instruction keeps the invariant: it is issued with the lines at rest, or completes with them at rest. -/
namespace Sys2Proof.Machine

/-- What the host has still to issue is no part of the invariant. -/
theorem Invariant.setRequests {s : State} (hs : Invariant s) (ws : List PortWord) : Invariant (s.setRequests ws) :=
  ⟨hs.pos, hs.seq, hs.lines⟩

/-- An idle state with the lines at rest satisfies the invariant. -/
theorem invariant_of_idle {s : State} (hpos : PosOk s) (hen : s.en = true) (hidle : s.seq = .idle) (hrest : AtRest s) :
    Invariant s :=
  ⟨hpos, by simp [SeqOk, hidle], (linesOk_idle_iff hen hidle).mpr hrest⟩

/-- A running operation with the lines at rest, in a phase where they are, satisfies the invariant. -/
theorem invariant_of_rest {s : State} {op : Instr} {bi : Nat} {ph : Phase} (hpos : PosOk s) (hen : s.en = true)
    (hseq : s.seq = .run op bi ph) (hbi : bi < (wireBytes op).length) (hph : ph ∈ restPhases s.transport)
    (hlast : ph = .settle → bi + 1 = (wireBytes op).length) (hrest : AtRest s) : Invariant s := by
  refine ⟨hpos, ?_, (linesOk_rest_iff hen hseq (byteAt_eq_some.mpr ⟨hbi, rfl⟩) hph).mpr hrest⟩
  simp only [SeqOk, hseq]
  exact ⟨hen, hbi, phaseFits_of_restPhases hph, hlast⟩

/-- `begin` puts the lines at rest; no byte has been sent before it (R73, R74). -/
theorem atRest_begun {s : State} (hen : s.en = false) (hlines : LinesOk s) :
    AtRest (((s.setTransport s.transport.started).emit s.transport.startEvent).setEn) := by
  cases htr : s.transport with
  | serial c tx =>
    obtain ⟨rfl, -⟩ : tx = .undriven c ∧ byteStream s.trace = [] := by simpa [LinesOk, htr, hen] using hlines
    simp [AtRest, Transport.started, SerialTx.undriven]
  | parallel c l =>
    obtain ⟨-, hnone⟩ : l = .undriven ∧ byteStream s.trace = [] := by simpa [LinesOk, htr, hen] using hlines
    simp [AtRest, Transport.started, Transport.startEvent, lastByte, hnone, Event.txByte]

/-- An instruction keeps the invariant. -/
theorem executes_invariant {i : Instr} {s t : State} (h : Executes s i t) (hidle : s.seq = .idle) (hs : Invariant s) :
    Invariant t := by
  have hpos := executes_posOk h hs.pos
  have hrest : s.en = true → AtRest s := fun hen => (linesOk_idle_iff hen hidle).mp hs.lines
  cases h with
  | issued hen _ hne =>
    exact invariant_of_rest hpos hen rfl (List.length_pos_iff.mpr hne) (firstPhase_mem_restPhases _)
      (fun hph => absurd hph (firstPhase_ne_settle _)) (hrest hen)
  | begun hen => exact invariant_of_idle hpos rfl hidle (atRest_begun hen hs.lines)
  | sampled hen =>
    refine invariant_of_idle hpos (by simpa using hen) (by simpa using hidle) ((hrest hen).of_eq (by simp) ?_)
    simpa using lastByte_append_of_not_tx rfl
  | unsampled hen => exact invariant_of_idle hpos hen hidle (hrest hen)
  | noGlyph => exact hs
  | printed => exact hs.setRequests _

end Sys2Proof.Machine
end

section
/-! Proofs that each phase keeps the invariant (`spec/10_state.md` R14). -/
namespace Sys2Proof.Machine

/-- What the invariant says of a running operation. -/
theorem Invariant.running {s : State} {op : Instr} {bi : Nat} {ph : Phase} (hs : Invariant s)
    (hseq : s.seq = .run op bi ph) :
    s.en = true ∧ bi < (wireBytes op).length ∧ phaseFits s.transport ph = true ∧
      (ph = .settle → bi + 1 = (wireBytes op).length) := by
  simpa only [SeqOk, hseq] using hs.seq

section

variable {s : State} {op : Instr} {bi : Nat} {ph : Phase} {v : Byte}

/-- The end of a byte, the lines at rest: the next byte begins, or `SETTLE`. -/
theorem invariant_afterByte (hpos : PosOk s) (hen : s.en = true) (hbi : bi < (wireBytes op).length) (hrest : AtRest s) :
    Invariant (afterByte op bi s) := by
  obtain ⟨hmore, hnext⟩ | ⟨hlast, hnext⟩ := afterByte_eq op bi s <;> rw [hnext]
  · exact invariant_of_rest hpos hen rfl hmore (firstPhase_mem_restPhases _)
      (fun hph => absurd hph (firstPhase_ne_settle _)) hrest
  · exact invariant_of_rest hpos hen rfl hbi (settle_mem_restPhases _) (fun _ => by omega) hrest

/-- `SETTLE` returns with the lines still at rest. -/
theorem invariant_phaseSettle (hs : Invariant s) (hseq : s.seq = .run op bi .settle) (hbyte : byteAt op bi = some v) :
    Invariant (phaseSettle op s) := by
  obtain ⟨hen, -⟩ := hs.running hseq
  have hrest := (linesOk_rest_iff hen hseq hbyte (settle_mem_restPhases _)).mp hs.lines
  unfold phaseSettle
  split
  · exact invariant_of_idle hs.pos hen rfl (hrest.of_eq rfl (lastByte_append_of_not_tx rfl))
  · exact invariant_of_idle hs.pos hen rfl hrest

end

section Parallel

variable {s : State} {c : ParallelConfig} {l : Latches} {op : Instr} {bi : Nat} {ph : Phase} {v : Byte}

/-- A state inside a transfer on Parallel, whose latches are those of its phase. -/
theorem invariant_of_transfer (hpos : PosOk s) (hen : s.en = true) (htr : s.transport = .parallel c l)
    (hseq : s.seq = .run op bi ph) (hbyte : byteAt op bi = some v) (hph : ph ∈ [.selOn, .wrLo, .wrHi, .selOff])
    (hlatches : latchesIn (.run op bi ph) s.trace = some l) : Invariant s := by
  obtain ⟨hbi, -⟩ := byteAt_eq_some.mp hbyte
  refine ⟨hpos, ?_, (linesOk_parallel_iff hen htr).mpr (hseq ▸ hlatches)⟩
  simp only [List.mem_cons, List.not_mem_nil, or_false] at hph
  simp only [SeqOk, hseq, htr]
  obtain rfl | rfl | rfl | rfl := hph <;> exact ⟨hen, hbi, rfl, fun hph => Phase.noConfusion hph⟩

/-- A poll sends no byte, so the lines stay at rest, in `WAIT` or on to `DRIVE`. -/
theorem invariant_phaseWait (hs : Invariant s) (htr : s.transport = .parallel c l) (hseq : s.seq = .run op bi .wait)
    (hbyte : byteAt op bi = some v) : Invariant (phaseWait c op bi s) := by
  obtain ⟨hen, hbi, -⟩ := hs.running hseq
  have hrest := (linesOk_rest_iff hen hseq hbyte (by simp [htr, restPhases])).mp hs.lines
  have hpolled : PosOk (s.busyRead c) := by simpa [PosOk] using hs.pos
  unfold phaseWait
  split
  · refine invariant_of_rest (op := op) (bi := bi) (ph := .wait) hpolled (by simpa using hen) (by simpa using hseq) hbi
      (by simp [htr, restPhases]) (by simp) (hrest.of_eq (by simp) ?_)
    simpa using lastByte_append_of_not_tx (es := [_, _]) rfl
  · refine invariant_of_rest (ph := .drive) hpolled (by simpa using hen) rfl hbi (by simp [htr, restPhases]) (by simp)
      (hrest.of_eq (by simp) ?_)
    simpa using lastByte_append_of_not_tx (es := [_]) rfl

variable (hs : Invariant s) (htr : s.transport = .parallel c l) (hseq : s.seq = .run op bi ph)
include hs htr hseq

/-- The latches of the phase a Parallel operation is in. -/
theorem latchesIn_of_running : latchesIn (.run op bi ph) s.trace = some l := by
  obtain ⟨hen, -⟩ := hs.running hseq
  rw [← hseq]
  exact (linesOk_parallel_iff hen htr).mp hs.lines

variable (hbyte : byteAt op bi = some v)
include hbyte

theorem invariant_phaseDrive (hph : ph = .drive) : Invariant (phaseDrive c l op bi v s) := by
  have hlatches := latchesIn_of_running hs htr hseq
  subst hph
  obtain rfl : Latches.parked (lastByte s.trace) = l := by simpa [latchesIn, hbyte] using hlatches
  exact invariant_of_transfer hs.pos (hs.running hseq).1 rfl rfl hbyte (by simp)
    (by simp [latchesIn, hbyte, Latches.parked])

theorem invariant_phaseSelOn (hph : ph = .selOn) : Invariant (phaseSelOn c l op bi s) := by
  have hlatches := latchesIn_of_running hs htr hseq
  subst hph
  obtain rfl : Latches.parked v = l := by simpa [latchesIn, hbyte] using hlatches
  exact invariant_of_transfer hs.pos (hs.running hseq).1 rfl rfl hbyte (by simp) (by simp [latchesIn, hbyte])

theorem invariant_phaseWrLo (hph : ph = .wrLo) : Invariant (phaseWrLo c l op bi s) := by
  have hlatches := latchesIn_of_running hs htr hseq
  subst hph
  obtain rfl : { Latches.parked v with sel := .drives .asserted } = l := by simpa [latchesIn, hbyte] using hlatches
  exact invariant_of_transfer hs.pos (hs.running hseq).1 rfl rfl hbyte (by simp) (by simp [latchesIn, hbyte])

theorem invariant_phaseWrHi (hph : ph = .wrHi) : Invariant (phaseWrHi c l op bi s) := by
  have hlatches := latchesIn_of_running hs htr hseq
  subst hph
  obtain rfl : { Latches.parked v with sel := .drives .asserted, wr := .drives .low } = l := by
    simpa [latchesIn, hbyte] using hlatches
  exact invariant_of_transfer hs.pos (hs.running hseq).1 rfl rfl hbyte (by simp)
    (by simp [latchesIn, hbyte, Latches.parked])

theorem invariant_phaseSelOff (hph : ph = .selOff) : Invariant (phaseSelOff c l op bi v s) := by
  have hlatches := latchesIn_of_running hs htr hseq
  obtain ⟨hen, hbi, -⟩ := hs.running hseq
  subst hph
  obtain rfl : { Latches.parked v with sel := .drives .asserted } = l := by simpa [latchesIn, hbyte] using hlatches
  exact invariant_afterByte hs.pos hen hbi (congrArg Latches.parked (lastByte_append_tx _ _).symm)

end Parallel

section Serial

variable {s : State} {c : SerialConfig} {tx : SerialTx} {op : Instr} {bi left : Nat} {v : Byte}

/-- A state inside a frame, whose transmitter is that of its bit time. -/
theorem invariant_of_frame (hpos : PosOk s) (hen : s.en = true) (htr : s.transport = .serial c tx)
    (hseq : s.seq = .run op bi (.shift left)) (hbyte : byteAt op bi = some v) (hone : 1 ≤ left)
    (hleft : left ≤ frameLength c.frame)
    (htxsr : tx.txsr = shifted (frameBits c.frame v) (frameLength c.frame - left))
    (htxd : tx.txd = .drives (headLevel tx.txsr)) (hcnt : tx.baudcnt < baudDiv c) : Invariant s := by
  obtain ⟨hbi, -⟩ := byteAt_eq_some.mp hbyte
  refine ⟨hpos, ?_, (linesOk_serial_iff hen htr).mpr ?_⟩
  · simp only [SeqOk, hseq, htr]
    exact ⟨hen, hbi, by simp [phaseFits, hone, hleft], fun hph => Phase.noConfusion hph⟩
  · rw [hseq]
    exact ⟨v, hbyte, htxsr, htxd, hcnt⟩

/-- `SEND` loads the frame: nothing is shifted yet. -/
theorem invariant_phaseSend (hs : Invariant s) (hseq : s.seq = .run op bi .send) (hbyte : byteAt op bi = some v) :
    Invariant (phaseSend c op bi v s) := by
  have hone : 1 ≤ frameLength c.frame := le_trans (by omega) (eight_le_frameLength c.frame)
  have hdiv := one_le_baudDiv c
  exact invariant_of_frame hs.pos (hs.running hseq).1 rfl rfl hbyte hone le_rfl (by simp [shifted]) (by simp)
    (by simp; omega)

/-- A reference period counts down, or shifts once; the last one of the frame leaves marks only. -/
theorem invariant_phaseShift (hs : Invariant s) (htr : s.transport = .serial c tx)
    (hseq : s.seq = .run op bi (.shift left)) : Invariant (phaseShift c tx op bi left s) := by
  obtain ⟨hen, hbi, hfits, -⟩ := hs.running hseq
  obtain ⟨hone, hleft⟩ : 1 ≤ left ∧ left ≤ frameLength c.frame := by simpa [htr, phaseFits] using hfits
  have htx := (linesOk_serial_iff hen htr).mp hs.lines
  rw [hseq] at htx
  obtain ⟨v, hbyte, htxsr, htxd, hcnt⟩ := htx
  have hdiv := one_le_baudDiv c
  by_cases hzero : tx.baudcnt = 0
  · rw [phaseShift_of_baudcnt_zero hzero, htxsr, ← shifted_succ]
    split
    · have hshifts : frameLength c.frame - left + 1 = frameLength c.frame - (left - 1) := by omega
      exact invariant_of_frame hs.pos hen rfl rfl hbyte (by omega) (by omega) (by simp [hshifts]) (by simp)
        (by simp; omega)
    · have hshifts : frameLength c.frame - left + 1 = frameLength c.frame := by omega
      refine invariant_afterByte hs.pos hen hbi ?_
      simp [AtRest, hshifts, shifted_frameBits]
  · rw [phaseShift, if_pos hzero, SerialTx.tick_counts hzero]
    exact invariant_of_frame hs.pos hen rfl hseq hbyte hone hleft htxsr htxd (by simp; omega)

end Serial

/-- Every phase keeps the invariant. -/
theorem sequence_invariant {s t : State} {op : Instr} {bi : Nat} {ph : Phase} (hs : Invariant s)
    (hseq : s.seq = .run op bi ph) (h : sequence op bi ph s = .next t) : Invariant t := by
  obtain ⟨v, hbyte, ⟨c, l, htr, hrow⟩ | ⟨c, tx, htr, hrow⟩⟩ := sequence_cases h
  · obtain ⟨rfl, rfl⟩ | ⟨hph, rfl⟩ | ⟨hph, rfl⟩ | ⟨hph, rfl⟩ | ⟨hph, rfl⟩ | ⟨hph, rfl⟩ | ⟨rfl, rfl⟩ := hrow
    · exact invariant_phaseWait hs htr hseq hbyte
    · exact invariant_phaseDrive hs htr hseq hbyte hph
    · exact invariant_phaseSelOn hs htr hseq hbyte hph
    · exact invariant_phaseWrLo hs htr hseq hbyte hph
    · exact invariant_phaseWrHi hs htr hseq hbyte hph
    · exact invariant_phaseSelOff hs htr hseq hbyte hph
    · exact invariant_phaseSettle hs hseq hbyte
  · obtain ⟨rfl, rfl⟩ | ⟨left, rfl, rfl⟩ | ⟨rfl, rfl⟩ := hrow
    · exact invariant_phaseSend hs hseq hbyte
    · exact invariant_phaseShift hs htr hseq
    · exact invariant_phaseSettle hs hseq hbyte

/-- Settles O41: instructions keep the invariant, and so does each phase. -/
theorem stepKeepsTheInvariant : Obligations.StepKeepsTheInvariant := by
  intro s t hs hstep
  obtain ⟨-, rfl⟩ | ⟨w, rest, hidle, -, hexec⟩ | ⟨op, bi, ph, hseq, hphase⟩ := step_cases hstep
  · exact hs
  · exact executes_invariant hexec hidle (hs.setRequests rest)
  · exact sequence_invariant hs hseq hphase

/-- Settles O40: `POS` is 0, nothing runs, and before `begin` the lines are undriven and no byte has been sent. -/
theorem newInstanceSatisfiesTheInvariant : Obligations.NewInstanceSatisfiesTheInvariant := by
  intro c
  refine ⟨Nat.zero_le 39, trivial, ?_⟩
  cases c <;> exact ⟨rfl, rfl⟩

end Sys2Proof.Machine
end

section
/-! Proofs about faults and about the strobe, from the invariant (`spec/60_exceptions.md` R140; `spec/40_transport.md`
R80). -/
namespace Sys2Proof.Machine

/-- No instruction faults. -/
theorem exec_ne_fault (i : Instr) (s : State) (r : Fault) : exec i s ≠ .fault r := by
  cases i with
  | write | clear | reset | setBrightness | setCursorPosition | setCursor | home | backspace | horizontalTab
  | allDisplayOn => exact issue_not_fault
  | setCursorMode sel =>
    simp only [exec, execSetCursorMode]
    split
    · simp
    · split
      · exact issue_not_fault
      · simp
  | defineCustomChar slot g =>
    simp only [exec, execDefineCustomChar]
    split
    · simp
    · split
      · simp
      · exact issue_not_fault
  | begin =>
    simp only [exec, execBegin]
    split
    · simp
    · split <;> simp
  | isBusy =>
    simp only [exec, execIsBusy]
    split
    · simp
    · split <;> simp
  | print bs =>
    simp only [exec, execPrint]
    split <;> simp
  | reservedE | reservedF => simp [exec, execReservedE, execReservedF]
  | txByteSerial | txByteParallel =>
    simp only [exec, execTxByteSerial, execTxByteParallel]
    split
    · exact issue_not_fault
    · simp

/-- A phase of the transport's own rows does not fault. -/
theorem runPhase_ne_fault {s : State} {ph : Phase} (hfits : phaseFits s.transport ph = true) (op : Instr) (bi : Nat)
    (v : Byte) (r : Fault) : runPhase op bi ph v s ≠ .fault r := by
  cases htr : s.transport with
  | parallel c l =>
    cases ph with
    | send | shift => simp [htr, phaseFits] at hfits
    | wait | drive | selOn | wrLo | wrHi | selOff | settle => simp [runPhase, htr]
  | serial c tx =>
    cases ph with
    | send | shift | settle => simp [runPhase, htr]
    | wait | drive | selOn | wrLo | wrHi | selOff => simp [htr, phaseFits] at hfits

/-- Settles O43: the phase of a running operation is one of its transport's rows, and no instruction faults. -/
theorem noStepFaults : Obligations.NoStepFaults := by
  intro s r hs
  cases hseq : s.seq with
  | idle =>
    cases hreq : s.requests with
    | nil => simp [step_waiting hseq hreq]
    | cons w rest =>
      rw [step_issuing hseq hreq]
      exact exec_ne_fault _ _ r
  | run op bi ph =>
    obtain ⟨-, hbi, hfits, -⟩ := hs.running hseq
    exact sequence_next_of_fits (byteAt_eq_some.mpr ⟨hbi, rfl⟩) hseq (runPhase_ne_fault hfits op bi _) r

section

variable {q : SeqState} {tr : List Event} {l : Latches}

/-- `WR` is low in one phase, and `SEL` is asserted there. -/
theorem sel_asserted_of_wr_low (h : latchesIn q tr = some l) (hwr : l.wr = .drives .low) : l.sel = .drives .asserted := by
  cases q with
  | idle => cases h; cases hwr
  | run op bi ph =>
    cases hbyte : byteAt op bi with
    | none => simp [latchesIn, hbyte] at h
    | some v =>
      cases ph with
      | send | shift => simp [latchesIn, hbyte] at h
      | wrHi =>
        simp only [latchesIn, hbyte, Option.some.injEq] at h
        exact h ▸ rfl
      | wait | drive | selOn | wrLo | selOff | settle =>
        simp only [latchesIn, hbyte, Option.some.injEq] at h
        subst h
        cases hwr

/-- `SEL` is asserted from the phase `WR_LO` to `SEL_OFF`. -/
theorem phase_of_sel_asserted (h : latchesIn q tr = some l) (hsel : l.sel = .drives .asserted) :
    ∃ op bi ph, q = .run op bi ph ∧ ph ∈ [Phase.wrLo, .wrHi, .selOff] := by
  cases q with
  | idle => cases h; cases hsel
  | run op bi ph =>
    refine ⟨op, bi, ph, rfl, ?_⟩
    cases hbyte : byteAt op bi with
    | none => simp [latchesIn, hbyte] at h
    | some v =>
      cases ph with
      | wrLo | wrHi | selOff => simp
      | send | shift => simp [latchesIn, hbyte] at h
      | wait | drive | selOn | settle =>
        simp only [latchesIn, hbyte, Option.some.injEq] at h
        subst h
        cases hsel

end

/-- The phases with `SEL` asserted leave `D` as it is. -/
theorem step_keeps_data {s t : State} {c c' : ParallelConfig} {l l' : Latches} {op : Instr} {bi : Nat} {ph : Phase}
    (hseq : s.seq = .run op bi ph) (hph : ph ∈ [Phase.wrLo, .wrHi, .selOff]) (htr : s.transport = .parallel c l)
    (hstep : step s = .next t) (htr' : t.transport = .parallel c' l') : l'.d = l.d := by
  simp only [List.mem_cons, List.not_mem_nil, or_false] at hph
  obtain ⟨v, hbyte, -⟩ := sequence_cases ((step_running hseq).symm.trans hstep)
  obtain rfl | rfl | rfl := hph
  · cases (step_wrLo htr hseq hbyte).symm.trans hstep
    cases htr'
    rfl
  · cases (step_wrHi htr hseq hbyte).symm.trans hstep
    cases htr'
    rfl
  · cases (step_selOff htr hseq hbyte).symm.trans hstep
    obtain ⟨-, hnext⟩ | ⟨-, hnext⟩ := afterByte_eq op bi ((s.driveSel c l .deasserted).emit (.tx v)) <;>
      · rw [phaseSelOff, hnext] at htr'
        cases htr'
        rfl

/-- Settles O44: the lines are those of the phase, and `SEL` is asserted in three phases that do not write `D`. -/
theorem strobeKeepsItsLines : Obligations.StrobeKeepsItsLines := by
  intro s c l hs htr
  cases hen : s.en with
  | false =>
    obtain ⟨rfl, -⟩ : l = .undriven ∧ byteStream s.trace = [] := by simpa [LinesOk, htr, hen] using hs.lines
    simp [Latches.undriven]
  | true =>
    have hlatches := (linesOk_parallel_iff hen htr).mp hs.lines
    refine ⟨fun hidle _ => ?_, sel_asserted_of_wr_low hlatches, fun t c' l' hsel hstep htr' => ?_⟩
    · obtain rfl : Latches.parked (lastByte s.trace) = l := by simpa [hidle, latchesIn] using hlatches
      exact ⟨rfl, rfl, rfl⟩
    · obtain ⟨op, bi, ph, hseq, hph⟩ := phase_of_sel_asserted hlatches hsel
      exact step_keeps_data hseq hph htr hstep htr'

end Sys2Proof.Machine
end

section
/-! Proofs about the bytes of a whole run (`spec/20_memory.md` R40): what is sent and what is still owed is the same list
after every step. -/
namespace Sys2Proof.Machine

/-- The phases of a byte before its `TX`. -/
def phasesBeforeTx : List Phase := [.wait, .drive, .selOn, .wrLo, .wrHi, .selOff, .send]

/-- The bytes sent, then those the running operation has still to send. -/
def operationBytes (s : State) : List Byte := byteStream s.trace ++ remainingBytes s

theorem owedBytes_eq (s : State) :
    owedBytes s = operationBytes s ++ s.requests.flatMap (fun w => wireBytes (decode w)) := rfl

section

variable {s t : State} {op : Instr} {bi : Nat} {ph : Phase} {v : Byte}

theorem operationBytes_idle (hidle : s.seq = .idle) : operationBytes s = byteStream s.trace := by
  simp [operationBytes, remainingBytes, hidle]

/-- Until its `TX` a byte is among those still to send. -/
theorem operationBytes_beforeTx (hseq : s.seq = .run op bi ph) (hph : ph ∈ phasesBeforeTx) :
    operationBytes s = byteStream s.trace ++ (wireBytes op).drop bi := by
  simp only [phasesBeforeTx, List.mem_cons, List.not_mem_nil, or_false] at hph
  obtain rfl | rfl | rfl | rfl | rfl | rfl | rfl := hph <;> simp [operationBytes, remainingBytes, hseq]

theorem operationBytes_shift {left : Nat} (hseq : s.seq = .run op bi (.shift left)) :
    operationBytes s = byteStream s.trace ++ (wireBytes op).drop (bi + 1) := by
  simp [operationBytes, remainingBytes, hseq]

theorem operationBytes_settle (hseq : s.seq = .run op bi .settle) : operationBytes s = byteStream s.trace := by
  simp [operationBytes, remainingBytes, hseq]

theorem firstPhase_mem_phasesBeforeTx (x : Transport) : x.firstPhase ∈ phasesBeforeTx := by
  cases x <;> simp [phasesBeforeTx, Transport.firstPhase]

/-- At the end of a byte those after it are still to send. -/
theorem operationBytes_afterByte :
    operationBytes (afterByte op bi s) = byteStream s.trace ++ (wireBytes op).drop (bi + 1) := by
  obtain ⟨-, hnext⟩ | ⟨hlast, hnext⟩ := afterByte_eq op bi s <;> rw [hnext]
  · exact operationBytes_beforeTx rfl (firstPhase_mem_phasesBeforeTx _)
  · rw [operationBytes_settle rfl, List.drop_eq_nil_of_le hlast, List.append_nil]
    rfl

/-- From one phase before the `TX` to another, without a `TX`, nothing changes in what is sent and still to send. -/
theorem operationBytes_silent {ph' : Phase} (hseq : s.seq = .run op bi ph) (hph : ph ∈ phasesBeforeTx)
    (hseq' : t.seq = .run op bi ph') (hph' : ph' ∈ phasesBeforeTx) (hbytes : byteStream t.trace = byteStream s.trace) :
    operationBytes t = operationBytes s := by
  rw [operationBytes_beforeTx hseq hph, operationBytes_beforeTx hseq' hph', hbytes]

theorem operationBytes_phaseWait {c : ParallelConfig} (hseq : s.seq = .run op bi .wait) :
    operationBytes (phaseWait c op bi s) = operationBytes s := by
  unfold phaseWait
  split
  · exact operationBytes_silent (ph' := .wait) hseq (by simp [phasesBeforeTx]) (by simpa using hseq)
      (by simp [phasesBeforeTx]) (by simp [Event.txByte])
  · exact operationBytes_silent hseq (by simp [phasesBeforeTx]) rfl (by simp [phasesBeforeTx]) (by simp [Event.txByte])

/-- Byte `bi` heads the bytes from it on. -/
theorem drop_of_byteAt (hbyte : byteAt op bi = some v) : (wireBytes op).drop bi = v :: (wireBytes op).drop (bi + 1) := by
  obtain ⟨hbi, rfl⟩ := byteAt_eq_some.mp hbyte
  exact List.drop_eq_getElem_cons hbi

theorem operationBytes_phaseSelOff {c : ParallelConfig} {l : Latches} (hseq : s.seq = .run op bi .selOff)
    (hbyte : byteAt op bi = some v) : operationBytes (phaseSelOff c l op bi v s) = operationBytes s := by
  rw [operationBytes_beforeTx hseq (by simp [phasesBeforeTx]), drop_of_byteAt hbyte, phaseSelOff,
    operationBytes_afterByte]
  simp [Event.txByte]

theorem operationBytes_phaseSend {c : SerialConfig} (hseq : s.seq = .run op bi .send) (hbyte : byteAt op bi = some v) :
    operationBytes (phaseSend c op bi v s) = operationBytes s := by
  rw [operationBytes_beforeTx hseq (by simp [phasesBeforeTx]), drop_of_byteAt hbyte, phaseSend, operationBytes_shift rfl]
  simp [Event.txByte]

theorem operationBytes_phaseShift {c : SerialConfig} {tx : SerialTx} {left : Nat}
    (hseq : s.seq = .run op bi (.shift left)) :
    operationBytes (phaseShift c tx op bi left s) = operationBytes s := by
  rw [operationBytes_shift hseq]
  unfold phaseShift
  split
  · exact operationBytes_shift hseq
  · split
    · exact operationBytes_shift rfl
    · rw [operationBytes_afterByte]
      simp [Event.txByte]

theorem operationBytes_phaseSettle (hseq : s.seq = .run op bi .settle) :
    operationBytes (phaseSettle op s) = operationBytes s := by
  rw [operationBytes_settle hseq]
  unfold phaseSettle
  split <;> rw [operationBytes_idle rfl] <;> simp [Event.txByte]

/-- A phase hands its byte to the medium, or leaves what is sent and what is still to send as it was. -/
theorem sequence_operationBytes (hseq : s.seq = .run op bi ph) (h : sequence op bi ph s = .next t) :
    operationBytes t = operationBytes s := by
  obtain ⟨v, hbyte, ⟨c, l, htr, hrow⟩ | ⟨c, tx, htr, hrow⟩⟩ := sequence_cases h
  · obtain ⟨rfl, rfl⟩ | ⟨rfl, rfl⟩ | ⟨rfl, rfl⟩ | ⟨rfl, rfl⟩ | ⟨rfl, rfl⟩ | ⟨rfl, rfl⟩ | ⟨rfl, rfl⟩ := hrow
    · exact operationBytes_phaseWait hseq
    · exact operationBytes_silent hseq (by simp [phasesBeforeTx]) rfl (by simp [phasesBeforeTx])
        (by simp [phaseDrive, Event.txByte])
    · exact operationBytes_silent hseq (by simp [phasesBeforeTx]) rfl (by simp [phasesBeforeTx])
        (by simp [phaseSelOn, Event.txByte])
    · exact operationBytes_silent hseq (by simp [phasesBeforeTx]) rfl (by simp [phasesBeforeTx])
        (by simp [phaseWrLo, Event.txByte])
    · exact operationBytes_silent hseq (by simp [phasesBeforeTx]) rfl (by simp [phasesBeforeTx])
        (by simp [phaseWrHi, Event.txByte])
    · exact operationBytes_phaseSelOff hseq hbyte
    · exact operationBytes_phaseSettle hseq
  · obtain ⟨rfl, rfl⟩ | ⟨left, rfl, rfl⟩ | ⟨rfl, rfl⟩ := hrow
    · exact operationBytes_phaseSend hseq hbyte
    · exact operationBytes_phaseShift hseq
    · exact operationBytes_phaseSettle hseq

end

/-- An instruction with a selector of its own brings its bytes and takes nothing off the port. -/
theorem executes_operationBytes {i : Instr} {s t : State} (h : Executes s i t) (hidle : s.seq = .idle)
    (hself : i.issuedAs = [i]) :
    operationBytes t = operationBytes s ++ wireBytes i ∧ t.requests = s.requests := by
  rw [operationBytes_idle hidle]
  cases h with
  | issued _ hbytes =>
    refine ⟨?_, rfl⟩
    rw [operationBytes_beforeTx rfl (firstPhase_mem_phasesBeforeTx _), hbytes]
    rfl
  | begun =>
    refine ⟨(operationBytes_idle (by simpa using hidle)).trans ?_, rfl⟩
    cases s.transport <;> simp [Transport.startEvent, Event.txByte, wireBytes]
  | sampled =>
    refine ⟨(operationBytes_idle (by simpa using hidle)).trans ?_, by simp⟩
    simp [Event.txByte, wireBytes]
  | unsampled => exact ⟨(operationBytes_idle hidle).trans (by simp [wireBytes]), rfl⟩
  | noGlyph hout => exact ⟨(operationBytes_idle hidle).trans (by simp [wireBytes, hout]), rfl⟩
  | printed => simp [Instr.issuedAs] at hself

/-- What is sent and what is owed is the same list after a step. -/
theorem step_owedBytes {s t : State} (h : step s = .next t) : owedBytes t = owedBytes s := by
  rw [owedBytes_eq, owedBytes_eq]
  obtain ⟨-, rfl⟩ | ⟨w, rest, hidle, hreq, hexec⟩ | ⟨op, bi, ph, hseq, hphase⟩ := step_cases h
  · rfl
  · obtain ⟨hbytes, hrest⟩ := executes_operationBytes hexec hidle (decode_issuedAs w)
    rw [hbytes, hrest, hreq, List.flatMap_cons, ← List.append_assoc]
    rfl
  · rw [sequence_operationBytes hseq hphase, (sequence_frame hphase).requests]

theorem run_owedBytes {n : Nat} {s t : State} (h : run n s = .next t) : owedBytes t = owedBytes s :=
  run_induction (P := fun u => owedBytes u = owedBytes s) (fun _ _ hu hstep => (step_owedBytes hstep).trans hu) rfl h

/-- Nothing is owed by a finished machine. -/
theorem owedBytes_finished {t : State} (h : Finished t) : owedBytes t = byteStream t.trace := by
  obtain ⟨hidle, hreq⟩ := h
  simp [owedBytes_eq, operationBytes_idle hidle, hreq]

/-- A finished run from an idle state has sent the bytes of the operations on the port. -/
theorem byteStream_finished {n : Nat} {s t : State} (hidle : s.seq = .idle) (hrun : run n s = .next t) (ht : Finished t) :
    byteStream t.trace = byteStream s.trace ++ s.requests.flatMap (fun w => wireBytes (decode w)) := by
  rw [← owedBytes_finished ht, run_owedBytes hrun, owedBytes_eq, operationBytes_idle hidle]

/-- Settles O48: no step changes the list of the bytes sent and owed. -/
theorem bytesLeaveInIssueOrder : Obligations.BytesLeaveInIssueOrder :=
  fun _ _ _ _ hrun => ⟨run_owedBytes hrun, fun hidle ht => byteStream_finished hidle hrun ht⟩

end Sys2Proof.Machine
end

section
/-! Proofs about the positions of a whole run (`spec/30_encoding.md` R50), and what a Serial and a Parallel run have in
common (`spec/00_scope.md` R8). -/
namespace Sys2Proof.Machine

/-- `POS` after what the host has still to issue is the same after a step. -/
theorem step_owedPos {s t : State} (h : step s = .next t) : owedPos t = owedPos s := by
  obtain ⟨-, rfl⟩ | ⟨w, rest, hidle, hreq, hexec⟩ | ⟨op, bi, ph, hseq, hphase⟩ := step_cases h
  · rfl
  · obtain ⟨-, hrest⟩ := executes_operationBytes hexec hidle (decode_issuedAs w)
    obtain hpos | ⟨⟨bs, hprint⟩, -⟩ := executes_pos hexec
    · rw [owedPos, owedPos, hpos, hrest, hreq]
      rfl
    · have hself := decode_issuedAs w
      simp [hprint, Instr.issuedAs] at hself
  · have hframe := sequence_frame hphase
    rw [owedPos, owedPos, hframe.pos, hframe.requests]

theorem run_owedPos {n : Nat} {s t : State} (h : run n s = .next t) : owedPos t = owedPos s :=
  run_induction (P := fun u => owedPos u = owedPos s) (fun _ _ hu hstep => (step_owedPos hstep).trans hu) rfl h

/-- A finished run has left `POS` where the operations on the port take it. -/
theorem pos_finished {n : Nat} {s t : State} (hrun : run n s = .next t) (ht : Finished t) : t.pos = owedPos s := by
  obtain ⟨-, hreq⟩ := ht
  rw [← run_owedPos hrun, owedPos, hreq]
  rfl

/-- Settles O49: no step changes the position owed. -/
theorem positionsFollowInIssueOrder : Obligations.PositionsFollowInIssueOrder :=
  fun _ _ _ hrun => ⟨run_owedPos hrun, fun _ ht => pos_finished hrun ht⟩

/-- Settles O50: the bytes appended and the position left depend on the operations and on `POS` only. -/
theorem bothTransportsSendTheSameBytes : Obligations.BothTransportsSendTheSameBytes := by
  intro n₁ n₂ s₁ s₂ t₁ t₂ _ _ hidle₁ hidle₂ hreq hpos hrun₁ hrun₂ ht₁ ht₂
  refine ⟨?_, _, byteStream_finished hidle₁ hrun₁ ht₁, hreq ▸ byteStream_finished hidle₂ hrun₂ ht₂⟩
  rw [pos_finished hrun₁ ht₁, pos_finished hrun₂ ht₂, owedPos, owedPos, hreq, hpos]

end Sys2Proof.Machine
end

section
/-! The obligations about the busy-wait and the strobe (`spec/40_transport.md` R72, R76; `spec/60_exceptions.md` R150). -/
namespace Sys2Proof.Machine

/-- A poll stays in `WAIT`, or it read deasserted. -/
theorem phaseWait_stays_or_deasserted {s : State} {c : ParallelConfig} {op : Instr} {bi : Nat} :
    (phaseWait c op bi s).seq = s.seq ∨ (phaseWait c op bi s).trace = s.trace ++ [.busy .deasserted] := by
  unfold phaseWait
  split
  · exact .inl (by simp)
  · next hanswer => exact .inr (by simp [hanswer])

/-- Settles O33: each asserted poll changes the trace and the module's answers alone, and only a deasserted one goes on. -/
theorem busyWaitEndsOnlyWhenDeasserted : Obligations.BusyWaitEndsOnlyWhenDeasserted := by
  intro s c l op bi hs htr hseq
  obtain ⟨-, hbi, -⟩ := hs.running hseq
  have hbyte := byteAt_eq_some.mpr ⟨hbi, rfl⟩
  have hstep := step_wait htr hseq hbyte
  refine ⟨fun k rest hbusy => run_asserted_polls htr hseq hbyte hbusy,
    fun rest hbusy => hstep.trans (congrArg _ (phaseWait_of_deasserted hbusy)), fun t ht => ?_⟩
  cases hstep.symm.trans ht
  exact phaseWait_stays_or_deasserted

/-- The calls of `D <- v`: pin `i` of the data lines at the level of bit `i`. -/
theorem dataCalls_eq (c : ParallelConfig) (v : Byte) :
    dataCalls c v =
      [.writeLine c.pinD[0] (levelOfBool (v.getLsbD 0)), .writeLine c.pinD[1] (levelOfBool (v.getLsbD 1)),
       .writeLine c.pinD[2] (levelOfBool (v.getLsbD 2)), .writeLine c.pinD[3] (levelOfBool (v.getLsbD 3)),
       .writeLine c.pinD[4] (levelOfBool (v.getLsbD 4)), .writeLine c.pinD[5] (levelOfBool (v.getLsbD 5)),
       .writeLine c.pinD[6] (levelOfBool (v.getLsbD 6)), .writeLine c.pinD[7] (levelOfBool (v.getLsbD 7))] := by
  simp [dataCalls, List.range_succ]

@[simp] theorem afterByte_trace (op : Instr) (bi : Nat) (s : State) : (afterByte op bi s).trace = s.trace := by
  obtain ⟨-, hnext⟩ | ⟨-, hnext⟩ := afterByte_eq op bi s <;> rw [hnext, State.setSeq_trace]

/-- Settles O35: five steps make the strobe, and each of its events calls the platform as R150 says. -/
theorem strobeCallsThePlatform : Obligations.StrobeCallsThePlatform := by
  intro s c l op bi v htr hseq hbyte
  refine ⟨⟨_, run_strobe htr hseq hbyte, afterByte_trace ..⟩, ?_⟩
  simp [collaboratorCalls, strobe, Event.parallelCalls, dataCalls_eq, levelOf, levelOfBool]

end Sys2Proof.Machine
end

section
/-! Proofs about the bits of a frame (`spec/40_transport.md` R77): bit `j` of the shift register's frame is the level the
statement of the line gives for bit time `j`. -/
namespace Sys2Proof.Machine

/-- A running exclusive-or over bits is the parity of their number. -/
theorem foldl_bne_eq (f : Nat → Bool) (ks : List Nat) (p : Bool) :
    ks.foldl (fun p i => p != f i) p = (p != decide (ks.countP f % 2 = 1)) := by
  induction ks generalizing p with
  | nil => simp
  | cons k ks ih =>
    rw [List.foldl_cons, ih, List.countP_cons]
    cases hk : f k
    · simp
    · obtain heven | hodd := Nat.mod_two_eq_zero_or_one (ks.countP f)
      · simp [heven, show (ks.countP f + 1) % 2 = 1 by omega]
      · simp [hodd, show (ks.countP f + 1) % 2 = 0 by omega]

theorem oddOnes_eq (v : Byte) : oddOnes v = decide (onesOf v % 2 = 1) := by
  rw [oddOnes, foldl_bne_eq, onesOf]
  simp

/-- The parity bit of a frame that has one is at the level R77 says. -/
theorem parityBits_eq {p : Parity} (hp : p ≠ .none) (v : Byte) : parityBits p v = [parityLevel p v] := by
  obtain heven | hodd := Nat.mod_two_eq_zero_or_one (onesOf v) <;>
    cases p <;> simp_all [parityBits, parityLevel, oddOnes_eq, levelOfBool]

/-- Data bit `i` of a frame, by its order. -/
theorem dataBits_getElem? (o : BitOrder) (v : Byte) {i : Nat} (hi : i < 8) :
    (dataBits o v)[i]? = some (levelOfBool (v.getLsbD (if o = .lsbFirst then i else 7 - i))) := by
  cases o <;> simp [dataBits, hi]

/-- Bit `j` of the frame is the level of bit time `j`. -/
theorem frameBits_getElem? (f : SerialFrame) (v : Byte) {j : Nat} (hj : j < frameLength f) :
    (frameBits f v)[j]? = some (frameLevel f v j) := by
  simp only [frameBits, List.append_assoc, frameLevel]
  by_cases hstart : j < f.startBits
  · rw [List.getElem?_append_left (by simpa using hstart), List.getElem?_replicate, if_pos hstart, if_pos hstart]
  rw [List.getElem?_append_right (by simpa using hstart), List.length_replicate, if_neg hstart]
  by_cases hdata : j < f.startBits + 8
  · rw [List.getElem?_append_left (by simp; omega), dataBits_getElem? _ _ (by omega), if_pos hdata]
  rw [List.getElem?_append_right (by simp; omega), dataBits_length, if_neg hdata]
  unfold frameLength at hj
  by_cases hparity : f.parity = .none
  · rw [if_pos hparity] at hj
    rw [hparity, parityBits, List.nil_append, List.getElem?_replicate, if_pos (by omega), if_neg (by simp)]
  rw [if_neg hparity] at hj
  rw [parityBits_eq hparity]
  by_cases hlast : j = f.startBits + 8
  · simp [hparity, hlast]
  · rw [List.getElem?_append_right (by simp; omega), List.getElem?_replicate, if_pos (by simp; omega),
      if_neg (by simp [hlast])]

theorem headLevel_shifted {w : List Level} {j : Nat} {x : Level} (hx : w[j]? = some x) : headLevel (shifted w j) = x := by
  obtain ⟨hj, rfl⟩ := List.getElem?_eq_some_iff.mp hx
  rw [shifted_eq_drop_append w hj.le, List.drop_eq_getElem_cons hj]
  rfl

/-- The bit times of the default frame: a start bit, the bits of the byte from bit 0 up, a stop bit. -/
theorem frameLevel_standard (v : Byte) (j : Nat) :
    frameLevel .standard v j =
      if j = 0 then .low else if j ≤ 8 then (if v.getLsbD (j - 1) then .high else .low) else .high := by
  simp [frameLevel, SerialFrame.standard, levelOfBool, show j < 1 + 8 ↔ j ≤ 8 by omega]

/-- Settles O36: after `j` bit times and `m` periods the register has shifted `j` times, and its first bit is on `TXD`. -/
theorem serialLineCarriesTheFrame : Obligations.SerialLineCarriesTheFrame := by
  intro s c tx op bi v htr hseq hbyte j m hj hm
  have hsent := (run_one s).trans (step_send htr hseq hbyte)
  have hbit := run_bitTimes (s := phaseSend c op bi v s) rfl rfl hbyte hj
  have hperiod := run_counting (s := (((phaseSend c op bi v s).setTransport
    (.serial c (.loaded c (shifted (frameBits c.frame v) j)))).setSeq (.run op bi (.shift (frameLength c.frame - j))))) rfl
    rfl hbyte (m := m) (by simp; omega)
  have hlevel := headLevel_shifted (frameBits_getElem? c.frame v hj)
  have hrun := (run_add hsent _).trans ((run_add hbit m).trans hperiod)
  rw [Nat.add_assoc]
  refine ⟨_, _, hrun, rfl, congrArg Drive.drives hlevel, fun hstandard => ?_⟩
  rw [← frameLevel_standard, ← hstandard]
  exact congrArg Drive.drives hlevel

/-- Settles O37: the byte of `run_serialByte`, and where `afterByte` goes from it. -/
theorem serialByteTakesItsBitTimes : Obligations.SerialByteTakesItsBitTimes := by
  refine ⟨frameLength_standard, fun s c tx op bi v htr hseq hbyte => ?_⟩
  refine ⟨_, run_serialByte htr hseq hbyte, afterByte_trace .., ?_⟩
  unfold afterByte
  split <;> rfl

/-- From the first phase of a byte with `m` bytes left, that one included, an operation on Serial returns. -/
theorem serial_returns {op : Instr} {c : SerialConfig} (m : Nat) {s : State} {tx : SerialTx} {bi : Nat}
    (htr : s.transport = .serial c tx) (hseq : s.seq = .run op bi .send) (hbi : bi < (wireBytes op).length)
    (hleft : bi + m = (wireBytes op).length) :
    ∃ t, run (m * (1 + frameLength c.frame * baudDiv c) + 1) s = .next t ∧ t.seq = .idle := by
  induction m generalizing s tx bi with
  | zero => omega
  | succ m ih =>
    have hbyte := byteAt_eq_some.mpr ⟨hbi, rfl⟩
    have hrun := run_serialByte htr hseq hbyte
    rw [Nat.succ_mul, Nat.add_comm (m * _), Nat.add_assoc, run_add hrun]
    obtain ⟨hmore, hnext⟩ | ⟨hlast, hnext⟩ := afterByte_eq op bi _ <;> rw [hnext]
    · exact ih rfl rfl hmore (by omega)
    · obtain rfl : m = 0 := by omega
      rw [Nat.zero_mul, Nat.zero_add, run_one]
      exact ⟨_, step_settle rfl hbyte, rfl⟩

/-- Settles O38: an operation in its first phase has all its bytes left. -/
theorem serialOperationsAlwaysReturn : Obligations.SerialOperationsAlwaysReturn := by
  intro s c tx op hs htr hseq
  obtain ⟨-, hbi, -⟩ := hs.running hseq
  exact serial_returns _ htr hseq hbi (Nat.zero_add _)

end Sys2Proof.Machine
end

section
/-! Proofs about the baud divider (`spec/40_transport.md` R78): rounding is within a half, and a well-formed configuration
never rounds to 0. -/
namespace Sys2Proof.Machine

/-- `round(n / d)` is within a half of `n / d`, cleared of fractions. -/
theorem roundDiv_within_half (n : Nat) {d : Nat} (hd : 0 < d) :
    2 * n ≤ 2 * (roundDiv n d * d) + d ∧ 2 * (roundDiv n d * d) ≤ 2 * n + d := by
  have hrest := Nat.mod_lt n hd
  have hdivides : n / d * d + n % d = n := Nat.div_add_mod' n d
  have hup : (n / d + 1) * d = n / d * d + d := Nat.add_one_mul _ _
  unfold roundDiv
  split
  · omega
  · split
    · omega
    · split <;> omega

/-- The same, as a distance between rational numbers. -/
theorem roundDiv_dist_le (n : Nat) {d : Nat} (hd : 0 < d) : |(roundDiv n d : ℚ) - n / d| ≤ 1 / 2 := by
  have hd' : (0 : ℚ) < d := by exact_mod_cast hd
  obtain ⟨hbelow, habove⟩ := roundDiv_within_half n hd
  have hle : (n : ℚ) / d ≤ roundDiv n d + 1 / 2 := by
    have hbelow' : 2 * (n : ℚ) ≤ 2 * (roundDiv n d * d) + d := by exact_mod_cast hbelow
    rw [div_le_iff₀ hd']
    linarith
  have hge : (roundDiv n d : ℚ) - 1 / 2 ≤ n / d := by
    have habove' : 2 * ((roundDiv n d : ℚ) * d) ≤ 2 * n + d := by exact_mod_cast habove
    rw [le_div_iff₀ hd']
    linarith
  rw [abs_le]
  constructor <;> linarith

/-- Where the configuration is well formed the quotient does not round to 0. -/
theorem one_le_roundDiv {n d : Nat} (h : d < 2 * n ∨ d = 2 * n ∧ Config.roundTieUp = true) (hd : 0 < d) :
    1 ≤ roundDiv n d := by
  obtain habove | ⟨hhalf, htie⟩ := h
  · by_contra hzero
    have hnear := (roundDiv_within_half n hd).1
    rw [show roundDiv n d = 0 by omega] at hnear
    omega
  · simp [roundDiv, Nat.mod_eq_of_lt (show n < d by omega), show ¬2 * n < d by omega, show ¬d < 2 * n by omega, htie]

/-- `F_REF / BAUD` is the quotient the divider rounds, where `F_REF` is not negative. -/
theorem fRef_div_baud (c : SerialConfig) (hnum : 0 ≤ c.fRef.num) :
    c.fRef / (c.baud : ℕ) = (c.fRef.num.toNat : ℚ) / (c.fRef.den * c.baud : ℕ) := by
  have hcast : (c.fRef.num.toNat : ℚ) = c.fRef.num := by exact_mod_cast Int.toNat_of_nonneg hnum
  calc c.fRef / (c.baud : ℕ)
      = c.fRef.num / c.fRef.den / (c.baud : ℕ) := by rw [Rat.num_div_den]
    _ = _ := by rw [div_div, hcast, Nat.cast_mul]

/-- Settles O51: `DIV` is the rounded quotient itself, which is not 0. -/
theorem baudDivisorIsTheNearestInteger : Obligations.BaudDivisorIsTheNearestInteger := by
  intro c hwf
  have hd : 0 < c.fRef.den * (c.baud : ℕ) := Nat.mul_pos c.fRef.den_pos c.baud.pos
  have hhalf : c.fRef.den * (c.baud : ℕ) < 2 * c.fRef.num.toNat ∨
      c.fRef.den * (c.baud : ℕ) = 2 * c.fRef.num.toNat ∧ Config.roundTieUp = true := by
    simpa [TransportConfig.wellFormed] using hwf
  have hdiv : baudDiv c = roundDiv c.fRef.num.toNat (c.fRef.den * c.baud) := max_eq_right (one_le_roundDiv hhalf hd)
  refine ⟨one_le_baudDiv c, ?_⟩
  rw [hdiv, fRef_div_baud c (by omega)]
  exact roundDiv_dist_le _ hd

end Sys2Proof.Machine
end

section
/-! The obligations about `begin`, `isBusy`, the refusals, the step and a new machine (`spec/40_transport.md` R73 to R75;
`spec/10_state.md` R11, R15, R20). -/
namespace Sys2Proof.Machine

/-- Settles O25: the three ways out of `begin`. -/
theorem beginStartsTheTransport : Obligations.BeginStartsTheTransport := by
  refine ⟨fun w hw => by simp [decode, hw], fun s c tx hidle hen htr => ?_, fun s c l hidle hen htr => ?_,
    fun s hidle hen => by simp [exec, execBegin, hidle, hen]⟩
  · simp [exec, execBegin, hidle, hen, htr, Transport.started, Transport.startEvent, State.setTransport, State.emit,
      State.setEn]
  · simp [exec, execBegin, hidle, hen, htr, Transport.started, Transport.startEvent, State.setTransport, State.emit,
      State.setEn, Latches.parked]

section

variable {s : State} {c : ParallelConfig} {l : Latches}

/-- At a ready Parallel machine `isBusy` samples the line once. -/
theorem execIsBusy_parallel (hs : Ready s) (htr : s.transport = .parallel c l) :
    exec .isBusy s = .next ((s.busyRead c).answerBusy (busyBit (s.busyAnswer c))) := by
  simp [exec, execIsBusy, admission_ready hs.idle hs.en, htr]

theorem execIsBusy_serial {c : SerialConfig} {tx : SerialTx} (hs : Ready s) (htr : s.transport = .serial c tx) :
    exec .isBusy s = .next (s.answerBusy false) := by
  simp [exec, execIsBusy, admission_ready hs.idle hs.en, htr]

@[simp] theorem busyBit_logicOf (active x : Level) : busyBit (logicOf active x) = decide (x = active) := by
  unfold busyBit logicOf
  split <;> simp_all

/-- The sample is what the module is listed to answer. -/
theorem execIsBusy_listed (hs : Ready s) (htr : s.transport = .parallel c l) {x : Level} {rest : List Level}
    (hbusy : s.moduleBusy = x :: rest) :
    exec .isBusy s = .next { s with
      busyQ := decide (x = c.busyActive), busyQValid := true, moduleBusy := rest
      trace := s.trace ++ [.busy (logicOf c.busyActive x)] } := by
  obtain ⟨hlevel, hdrop⟩ := State.sample_listed hbusy
  rw [execIsBusy_parallel hs htr]
  simp [State.busyAnswer, State.busyRead, State.answerBusy, State.emit, hlevel, hdrop]

/-- Where nothing is listed the sample is the next free draw. -/
theorem execIsBusy_drawn (hs : Ready s) (htr : s.transport = .parallel c l) (hbusy : s.moduleBusy = []) :
    exec .isBusy s = .next { s with
      busyQ := decide (Config.busyLevel s.draws = c.busyActive), busyQValid := true, draws := s.draws + 1
      trace := s.trace ++ [.busy (logicOf c.busyActive (Config.busyLevel s.draws))] } := by
  rw [execIsBusy_parallel hs htr]
  simp [State.busyAnswer, State.busyRead, State.answerBusy, State.emit, State.busyLevel, State.dropSample, hbusy]

end

/-- Settles O26: the sample is the listed answer or the free draw, and there is none on Serial. -/
theorem isBusyReportsOneSample : Obligations.IsBusyReportsOneSample :=
  ⟨fun w hw => by simp [decode, hw], fun _ _ _ _ _ hs htr hbusy => execIsBusy_listed hs htr hbusy,
    fun _ _ _ hs htr hbusy => execIsBusy_drawn hs htr hbusy, fun _ _ _ hs htr => execIsBusy_serial hs htr⟩

theorem readBusyQ_unread_iff {s : State} : s.readBusyQ = .refused .busyQUnread ↔ s.busyQValid = false := by
  simp [State.readBusyQ]

theorem readBusyQ_of_valid {s : State} (h : s.busyQValid = true) : s.readBusyQ = .next s.busyQ := by
  simp [State.readBusyQ, h]

/-- After an `isBusy` the host can read `busy_q`. -/
theorem busyQValid_of_isBusy {s t : State} (h : exec .isBusy s = .next t) : t.busyQValid = true := by
  obtain ⟨-, hexec⟩ := exec_cases h
  cases hexec with
  | issued _ hbytes hne => exact absurd hbytes hne
  | sampled | unsampled => rfl

/-- Settles O30: only `isBusy` makes `busy_q` valid, and it does so with its sample. -/
theorem busyQIsUnreadableBeforeIsBusy : Obligations.BusyQIsUnreadableBeforeIsBusy := by
  refine ⟨fun _ => rfl, fun s t hunread hstep hport => ?_, fun s t h => readBusyQ_of_valid (busyQValid_of_isBusy h),
    fun s c l x rest hs htr hbusy => ⟨_, execIsBusy_listed hs htr hbusy, rfl⟩,
    fun s c l hs htr hbusy => ⟨_, execIsBusy_drawn hs htr hbusy, rfl⟩,
    fun s c tx hs htr => ⟨_, execIsBusy_serial hs htr, rfl⟩⟩
  obtain ⟨-, hvalid⟩ := step_busyQ hstep hport
  rw [readBusyQ_unread_iff] at hunread ⊢
  exact hvalid.trans hunread

/-- Settles O28: the two selectors decode to the reserved instructions, whose meanings refuse. -/
theorem reservedSelectorsAreRefused : Obligations.ReservedSelectorsAreRefused :=
  ⟨fun w hw => by simp [decode, hw], fun w hw => by simp [decode, hw], fun _ => ⟨rfl, rfl⟩⟩

/-- Nothing is issued before `begin`. -/
theorem issue_notBegun {s : State} (hidle : s.seq = .idle) (hen : s.en = false) (op : Instr) (p : Pos) :
    issue op p s = .refused .notBegun := by
  simp [issue, admission_notBegun hidle hen]

/-- An operation with a selector, other than `begin`, asks for admission before anything else. -/
theorem exec_notBegun {i : Instr} {s : State} (hidle : s.seq = .idle) (hen : s.en = false) (hself : i.issuedAs = [i])
    (hi : i ≠ .begin ∧ i ≠ .reservedE ∧ i ≠ .reservedF) : exec i s = .refused .notBegun := by
  have hadm := admission_notBegun hidle hen
  cases i with
  | write | clear | reset | setBrightness | setCursorPosition | setCursor | home | backspace | horizontalTab
  | allDisplayOn => exact issue_notBegun hidle hen _ _
  | isBusy => simp [exec, execIsBusy, hadm]
  | setCursorMode sel => simp [exec, execSetCursorMode, hadm]
  | defineCustomChar slot g => simp [exec, execDefineCustomChar, hadm]
  | begin | reservedE | reservedF => simp at hi
  | print | txByteSerial | txByteParallel => simp [Instr.issuedAs] at hself

/-- The instruction a word decodes to is that of the word's selector. -/
theorem ofInstr_decode (w : PortWord) : Laws.Selector.ofInstr (decode w) = portOpSel w := by
  have hlt := (portOpSel w).isLt
  unfold decode
  interval_cases h : (portOpSel w).toNat <;> exact BitVec.eq_of_toNat_eq h.symm

/-- Settles O29: the selectors 1 to 0xD are those of the operations that ask for admission. -/
theorem nothingButBeginRunsBeforeBegin : Obligations.NothingButBeginRunsBeforeBegin := by
  intro s w hidle hen hlow hhigh
  rw [← ofInstr_decode] at hlow hhigh
  refine exec_notBegun hidle hen (decode_issuedAs w) ⟨fun hw => ?_, fun hw => ?_, fun hw => ?_⟩ <;>
    simp [hw, Laws.Selector.ofInstr] at hlow hhigh

/-- Settles O31: the equations of the step, and `withFetchWord` as the first word on the port. -/
theorem stepRunsTheOperationOnThePort : Obligations.StepRunsTheOperationOnThePort := by
  refine ⟨fun s w rest hidle hreq => step_issuing hidle hreq, fun s hidle hreq => step_waiting hidle hreq,
    fun s op bi ph hseq => step_running hseq, fun s nbits w i hi => ?_⟩
  obtain ⟨-, rfl⟩ : w % 2 ^ nbits < 2 ^ 55 ∧ decode (BitVec.ofNat 55 (w % 2 ^ nbits)) = i := by
    simpa [decodeTableWord] using hi
  exact step_issuing rfl rfl

/-- Settles O39: each field of a new machine is written out in `State.construct`. -/
theorem newInstanceIsAsTheResetTableSays : Obligations.NewInstanceIsAsTheResetTableSays := by
  refine ⟨rfl, fun c => ⟨rfl, rfl, rfl, rfl, rfl, rfl, by cases c <;> rfl, fun k l htr => ?_, fun k tx htr => ?_⟩⟩
  · cases c <;> cases htr
    exact ⟨rfl, rfl, rfl⟩
  · cases c <;> cases htr
    rfl

end Sys2Proof.Machine
end
